-- ==== Sys2Proof/Word.lean ====
section
/-! DEFINITION. The word types of the PCF8574 core block: a byte of eight pin bits, a command word, and a
pin identifier (spec/00_scope.md R7, R8; spec/30_encoding.md R70, R77). -/

namespace Sys2Proof

/-- A per-pin mask, a cache byte or a bus byte: 8 bits, bit `i` belongs to pin `i` (R7 `MASK_W`, R8). -/
abbrev Byte := BitVec 8

/-- One whole command word `CMD[15:0]` (R70). -/
abbrev CmdWord := BitVec 16

/-- A pin identifier, 0 to 7.  R77: a 3-bit field cannot hold anything else, so the bound is in the type. -/
abbrev Pin := Fin 8

end Sys2Proof
end

