-- ==== Sys2Proof/Syntax.lean ====
section
/-! DEFINITION. The commands of the PCF8574 core block as syntax: one constructor for each row of
spec/opcode_table.json (spec/30_encoding.md R76). -/

namespace Sys2Proof

/-- The field `DIR` of CFG (spec/40_pinconfig.md R101).  `unrecognized` is the legal encoding 0b11, which
fails at execution and is no decode error (spec/30_encoding.md R81). -/
inductive Direction where
  | output
  | inputPullDown
  | inputPullUp
  | unrecognized
  deriving DecidableEq, Repr

/-- The seven commands.  `POS_IN` of ENC is no part of the word: it stands on a parallel port (R78). -/
inductive Instr where
  /-- `CFG`: pin, `DIR`, `LVL` (R100). -/
  | cfg (p : Pin) (dir : Direction) (lvl : Bool)
  /-- `ACT` (R110). -/
  | act
  /-- `RD`: pin, `F` (R114). -/
  | rd (p : Pin) (force : Bool)
  /-- `WR`: pin, `V` (R115). -/
  | wr (p : Pin) (v : Bool)
  /-- `WRA`: `LEVELS` (R116). -/
  | wra (levels : Byte)
  /-- `RDA` (R117). -/
  | rda
  /-- `ENC`: pin A, pin B, `REV` (R142). -/
  | enc (a b : Pin) (rev : Bool)
  deriving DecidableEq, Repr

end Sys2Proof
end

