-- ==== Sys2Proof/WellFormed.lean ====
section
/-! DEFINITION. What a well-formed command is.  Every operand of `Instr` has exactly the values its field can
hold (spec/30_encoding.md R77), so an instruction cannot be ill formed, and the check of this hardware is the
one on command words: the word selects a row of the opcode map (R76, R80). -/

namespace Sys2Proof

/-- One row of the opcode map of R76. -/
structure OpcodeRow where
  mnemonic : String
  mask : CmdWord
  pattern : CmdWord
  deriving DecidableEq, Repr

/-- The defined rows of R76, in the table's order. -/
def opcodeTable : List OpcodeRow :=
  [ ⟨"CFG", 0xF8F8, 0x1000⟩,
    ⟨"ACT", 0xFFFF, 0x2000⟩,
    ⟨"RD",  0xF8FE, 0x3000⟩,
    ⟨"WR",  0xF8FE, 0x4000⟩,
    ⟨"WRA", 0xFF00, 0x5000⟩,
    ⟨"RDA", 0xFFFF, 0x6000⟩,
    ⟨"ENC", 0xF88E, 0x7000⟩ ]

/-- R76: "A word W selects a row iff (W & mask) == match." -/
def OpcodeRow.selects (r : OpcodeRow) (w : CmdWord) : Bool := w &&& r.mask == r.pattern

/-- A well-formed command word selects a row of the opcode map (the equivalent check of R80). -/
def wellFormedWord (w : CmdWord) : Bool := opcodeTable.any (·.selects w)

/-- The table's name of an instruction (R76). -/
def Instr.mnemonic : Instr → String
  | .cfg _ _ _ => "CFG"
  | .act => "ACT"
  | .rd _ _ => "RD"
  | .wr _ _ => "WR"
  | .wra _ => "WRA"
  | .rda => "RDA"
  | .enc _ _ _ => "ENC"

end Sys2Proof
end

