-- ==== Sys2Proof/Decode.lean ====
section
/-! DEFINITION. The decoder, total on all 65536 words and rejecting by name, written from the field positions
and formats of spec/30_encoding.md R71 to R75 and the reserved-bit rules R79 and R80; after it the encoder,
written from the same tables. -/

namespace Sys2Proof

/-! ### Fields (R71) -/

/-- `OP = CMD[15:12]`. -/
def opField (w : CmdWord) : BitVec 4 := w.extractLsb' 12 4

/-- A 3-bit field as a pin identifier (R77). -/
def pinOfBits (x : BitVec 3) : Pin := ⟨x.toNat, x.isLt⟩

/-- `PA = CMD[10:8]`. -/
def paField (w : CmdWord) : Pin := pinOfBits (w.extractLsb' 8 3)

/-- `PB = CMD[6:4]`. -/
def pbField (w : CmdWord) : Pin := pinOfBits (w.extractLsb' 4 3)

/-- `LVL = CMD[2]`. -/
def lvlField (w : CmdWord) : Bool := w.getLsbD 2

/-- The one-bit flags `F`, `V` and `REV` all stand at `CMD[0]`. -/
def flagField (w : CmdWord) : Bool := w.getLsbD 0

/-- `LEVELS = CMD[7:0]`. -/
def levelsField (w : CmdWord) : Byte := w.extractLsb' 0 8

/-- `DIR = CMD[1:0]`, read by spec/40_pinconfig.md R101. -/
def dirField (w : CmdWord) : Direction :=
  match w.getLsbD 1, w.getLsbD 0 with
  | false, false => .output
  | false, true  => .inputPullDown
  | true,  false => .inputPullUp
  | true,  true  => .unrecognized

/-! ### Decoding -/

/-- Why a word is illegal: a reserved opcode (R79) or a 1 in a reserved bit of its format (R80). -/
inductive IllegalWord where
  | reservedOpcode
  | reservedBit
  deriving DecidableEq, Repr

/-- What the decoder reads from a word. -/
inductive Decoded where
  | instr (i : Instr)
  | illegal (why : IllegalWord)
  deriving DecidableEq, Repr

/-- The command a defined opcode names, with its operands, and the bits its format reserves (R72 to R76). -/
def formatOf (w : CmdWord) : Option (CmdWord × Instr) :=
  if opField w = 0x1 then some (0x08F8, .cfg (paField w) (dirField w) (lvlField w))
  else if opField w = 0x2 then some (0x0FFF, .act)
  else if opField w = 0x3 then some (0x08FE, .rd (paField w) (flagField w))
  else if opField w = 0x4 then some (0x08FE, .wr (paField w) (flagField w))
  else if opField w = 0x5 then some (0x0F00, .wra (levelsField w))
  else if opField w = 0x6 then some (0x0FFF, .rda)
  else if opField w = 0x7 then some (0x088E, .enc (paField w) (pbField w) (flagField w))
  else none

/-- The decoder.  Reserved bits are checked before anything else (R80). -/
def decode (w : CmdWord) : Decoded :=
  match formatOf w with
  | none => .illegal .reservedOpcode
  | some (reserved, i) => if w &&& reserved = 0 then .instr i else .illegal .reservedBit

/-- The instruction the decoder read, if it read one. -/
def Decoded.toOption : Decoded → Option Instr
  | .instr i => some i
  | .illegal _ => none

/-- The command word made of the low `nbits` bits of `w`; every bit above them is 0. -/
def tableWord (nbits w : Nat) : CmdWord := BitVec.ofNat 16 (w % 2 ^ nbits)

/-- The instruction the decoder reads from a table word.  A command word is presented whole (R70), so there
are no bytes to order. -/
def decodeTableWord (nbits w : Nat) : Option Instr := (decode (tableWord nbits w)).toOption

/-! ### Encoding -/

/-- The 3 bits of a pin field. -/
def pinBits (p : Pin) : BitVec 3 := BitVec.ofNat 3 p.val

/-- The 2 bits of `DIR` (spec/40_pinconfig.md R101). -/
def dirBits : Direction → BitVec 2
  | .output => 0b00
  | .inputPullDown => 0b01
  | .inputPullUp => 0b10
  | .unrecognized => 0b11

/-- The encoder: the formats P, N, L and E of R72 to R75, most significant field first. -/
def encode : Instr → CmdWord
  | .cfg p d l  => 0x1#4 ++ 0#1 ++ pinBits p ++ 0#5 ++ BitVec.ofBool l ++ dirBits d
  | .act        => 0x2#4 ++ 0#12
  | .rd p f     => 0x3#4 ++ 0#1 ++ pinBits p ++ 0#7 ++ BitVec.ofBool f
  | .wr p v     => 0x4#4 ++ 0#1 ++ pinBits p ++ 0#7 ++ BitVec.ofBool v
  | .wra ls     => 0x5#4 ++ 0#4 ++ ls
  | .rda        => 0x6#4 ++ 0#12
  | .enc a b r  => 0x7#4 ++ 0#1 ++ pinBits a ++ 0#1 ++ pinBits b ++ 0#3 ++ BitVec.ofBool r

end Sys2Proof
end

