-- ==== Sys2Proof/Config.lean ====
section
/-! DEFINITION. What an implementation of the block fixes (the parameters of spec/00_scope.md R7), the answers
a bus transaction can have (spec/20_memory.md R52, R53, R57), and the free draws of the bus device. -/

namespace Sys2Proof

/-- The parameters of R7 that are no single number of the spec, and the debounce window, which R32 calls a
constant and D8 keeps a named parameter.  They are fixed for the block's life; `State` carries them, so a
statement about every state is a statement about every choice of them. -/
structure Config where
  /-- `TS_W`, the width of the millisecond timestamp and of NOW (OPEN). -/
  tsW : Nat
  /-- `POS_W`, the width of the signed encoder position (OPEN). -/
  posW : Nat
  /-- `DEBOUNCE_MS`. -/
  debounceMs : Nat
  /-- `DEV_ADDR`, the bus address used on every transaction (OPEN). -/
  devAddr : Nat
  deriving DecidableEq, Repr

/-- DESIGN CHOICE (notes/assumptions/1.md).  The parameters State.reset carries: the widths of the spec's own
test vectors and the source's 100 ms (R7), and the address 0, for which the spec gives no value. -/
def Config.vectors : Config := ⟨32, 32, 100, 0⟩

/-- DEDUCED (notes/assumptions/2.md).  A timestamp has at least one bit, and a position at least the two bits
that `sext_POS_W(DELTA)` extends (R10, R39). -/
abbrev Config.wf (c : Config) : Prop := 1 ≤ c.tsW ∧ 2 ≤ c.posW

/-- What the bus device answers to a BusWrite (R52), or that the transaction never returns (R57). -/
inductive WriteAnswer where
  | ack
  | nack
  | never
  deriving DecidableEq, Repr, Inhabited

/-- What the bus device answers to a BusRead (R53), or that the transaction never returns (R57). -/
inductive ReadAnswer where
  | byte (b : Byte)
  | empty
  | never
  deriving DecidableEq, Repr, Inhabited

/-- FREE VALUE (notes/assumptions/3.md).  The answer to the `n`-th BusWrite whose answer State does not already
hold: R52 leaves it to the bus device. -/
opaque Config.freeWriteAnswer : Nat → WriteAnswer

/-- FREE VALUE (notes/assumptions/3.md).  The same for a BusRead (R53): any byte, EMPTY, or no return. -/
opaque Config.freeReadAnswer : Nat → ReadAnswer

end Sys2Proof
end

