-- ==== Sys2Proof/Machine/State.lean ====
section
/-! DEFINITION. The state of the PCF8574 core block and of the collaborators the spec gives a state: the nine
registers of spec/10_state.md R20, the response fields of R38, the stuck block of spec/20_memory.md R57, the
input ports and the queues that feed them, the log of what the block put on its output ports, and the host
interrupt bridge of spec/60_exceptions.md R171. -/

namespace Sys2Proof.Machine

open Sys2Proof

/-! ### Responses -/

/-- The status codes of spec/60_exceptions.md R160.  The reserved codes 4 to 7 do not exist here, because they
are never produced. -/
inductive Status where
  | ok
  | invalidConfiguration
  | deviceUnreachable
  | illegalCommand
  deriving DecidableEq, Repr

/-- The response fields of spec/10_state.md R38 and spec/30_encoding.md R82.  `posOut` is the `POS_W`-bit
pattern, as a number below `2 ^ POS_W`. -/
structure Response where
  status : Status
  data : Byte
  delta : BitVec 2
  changed : Bool
  posOut : Nat
  deriving DecidableEq, Repr

/-! ### The block's ports -/

/-- One thing the block did on its output ports: a bus transaction at an address, with its answer
(spec/20_memory.md R50 to R53), or an event to the host interrupt bridge (spec/60_exceptions.md R170). -/
inductive PortEvent where
  | busWrite (addr : Nat) (b : Byte) (answer : WriteAnswer)
  | busRead (addr : Nat) (answer : ReadAnswer)
  | detach
  | reattach
  deriving DecidableEq, Repr

/-! ### The host interrupt bridge (R171) -/

/-- The kind of edge a callback is registered for.  The spec names only the default, a falling edge; another
kind is a number of the host's. -/
inductive EdgeKind where
  | fallingEdge
  | other (n : Nat)
  deriving DecidableEq, Repr

/-- The parameters of `attach`: a host GPIO line, a callback (by the host's number for it), an edge kind. -/
structure Attachment where
  line : Nat
  callback : Nat
  edge : EdgeKind
  deriving DecidableEq, Repr

/-- What the bridge asks of the host's GPIO line: `registerEdgeCallback(line, InputPullUp, edgeKind,
callback)` or `unregisterEdgeCallback(line)`. -/
inductive BridgeCall where
  | register (a : Attachment)
  | unregister (line : Nat)
  deriving DecidableEq, Repr

/-- The bridge's state as R171 gives it, and the calls it made, oldest first. -/
structure Bridge where
  attached : Bool
  last : Option Attachment
  calls : List BridgeCall
  deriving DecidableEq, Repr

/-! ### The host agents -/

/-- One action of a host agent: a command word presented with `POS_IN` and with the milliseconds the clock
moved since the last sample of NOW (spec/10_state.md R33, spec/30_encoding.md R70, R78), or a call of the
interrupt bridge (R171). -/
inductive HostAction where
  | command (word : CmdWord) (posIn : Nat) (advance : Nat)
  /-- `attach(line, callback, edgeKind)`, the edge kind absent or given. -/
  | attach (line callback : Nat) (edge : Option EdgeKind)
  | detach
  | reattach
  deriving DecidableEq, Repr

/-! ### State -/

/-- The whole state.  Block registers first (R20), then the response (R38) and the stuck block (R57), then the
input ports and what waits at them, then the output log and the bridge. -/
@[ext]
structure State where
  /-- The implementation parameters (spec/00_scope.md R7); no step changes them. -/
  cfg : Config
  /-- `WM`, write_mode (R21). -/
  wm : Byte
  /-- `WMU`, write_mode_up (R22). -/
  wmu : Byte
  /-- `RM`, read_mode (R23). -/
  rm : Byte
  /-- `PD`, read_mode_pull_down (R24). -/
  pd : Byte
  /-- `PU`, read_mode_pull_up (R25). -/
  pu : Byte
  /-- `BUF`, buffered byte (R28). -/
  buf : Byte
  /-- `WBUF`, write-buffered byte (R29). -/
  wbuf : Byte
  /-- `TS`, last-read timestamp (R30): the `TS_W`-bit pattern as a number. -/
  ts : Nat
  /-- `PHASE` (R35). -/
  phase : Byte
  /-- The response of the last completed command (R38). -/
  resp : Response
  /-- A bus transaction never returned (R57, R207). -/
  stuck : Bool
  /-- The `NOW` input as sampled when the running command was accepted (R33). -/
  now : Nat
  /-- The `POS_IN` port as presented with that command (R78). -/
  posIn : Nat
  /-- The host agents' actions still to come, in the order the block will accept them (R59, R168). -/
  host : List HostAction
  /-- Answers of the bus device already settled, for the coming BusWrites. -/
  writeAnswers : List WriteAnswer
  /-- Answers of the bus device already settled, for the coming BusReads. -/
  readAnswers : List ReadAnswer
  /-- How many BusWrite answers have been drawn freely (the model's own counter, notes/assumptions/3.md). -/
  freeWrites : Nat
  /-- How many BusRead answers have been drawn freely (the model's own counter, notes/assumptions/3.md). -/
  freeReads : Nat
  /-- Every bus transaction and event so far, oldest first (the model's own record). -/
  trace : List PortEvent
  /-- The host interrupt bridge (R41, R171). -/
  bridge : Bridge
  deriving DecidableEq, Repr

/-- Why the machine stops. -/
inductive Fault where
  /-- Raised by `step` alone, when a command is presented to a block whose bus transaction never returned
  (spec/20_memory.md R57: "the block is stuck: it accepts no further command").  Safe: the spec says the
  block does nothing more. -/
  | stuckOnBus
  deriving DecidableEq, Repr

/-- Why an instruction has no meaning. -/
inductive Refusal where
  /-- Raised by a refused arm of `exec` alone, for an instruction without a meaning; no arm is.  Safe. -/
  | notModelled (mnemonic : String)
  deriving DecidableEq, Repr

/-- How far a command, or a part of one, got: it ended with a value, or it hangs in a bus transaction that
never returned and everything after that point is not reached (R57, R207). -/
inductive Progress (α : Type) where
  | done (value : α) (s : State)
  | stuck (s : State)
  deriving DecidableEq, Repr

/-- Reset, the creation of the block's state (spec/70_reset_and_hazards.md R190): every register and response
field as spec/10_state.md R40 says, the bridge as R171 says, nothing presented.  The parameters, the samples
at the input ports and the draw counters are the model's choice (notes/assumptions/1.md, 3.md, 4.md). -/
def State.reset : State :=
  { cfg := Config.vectors
    wm := 0, wmu := 0, rm := 0, pd := 0, pu := 0
    buf := 0, wbuf := 0, ts := 0
    phase := 0
    resp := ⟨.ok, 0, 0, false, 0⟩
    stuck := false
    now := 0, posIn := 0
    host := []
    writeAnswers := [], readAnswers := [], freeWrites := 0, freeReads := 0
    trace := []
    bridge := ⟨false, none, []⟩ }

end Sys2Proof.Machine
end

