-- ==== Sys2Proof/Machine/Bridge.lean ====
section
/-! DEFINITION. The host interrupt bridge: the three operations of spec/60_exceptions.md R171. -/

namespace Sys2Proof.Machine

/-- The edge kind of a call of `attach`: a falling edge where the call names none. -/
def edgeOfCall (edge : Option EdgeKind) : EdgeKind := edge.getD .fallingEdge

/-- `attach(line, callback, edgeKind)`, the parameters filled in. -/
def Bridge.attach (a : Attachment) (br : Bridge) : Bridge :=
  { attached := true, last := some a, calls := br.calls ++ [.register a] }

/-- A call of `attach` by the host, the edge kind absent or given. -/
def Bridge.attachCall (line callback : Nat) (edge : Option EdgeKind) (br : Bridge) : Bridge :=
  br.attach ⟨line, callback, edgeOfCall edge⟩

/-- The line `detach` unregisters: none if nothing is attached. -/
def Bridge.unregisterCalls (br : Bridge) : List BridgeCall :=
  match br.attached, br.last with
  | true, some a => [.unregister a.line]
  | _, _ => []

/-- `detach()`, also the DETACH event: idempotent if not attached. -/
def Bridge.detach (br : Bridge) : Bridge :=
  { br with attached := false, calls := br.calls ++ br.unregisterCalls }

/-- `reattach()`, also the REATTACH event: the last `attach` again; a no-op if there was none. -/
def Bridge.reattach (br : Bridge) : Bridge :=
  match br.last with
  | none => br
  | some a => br.attach a

end Sys2Proof.Machine
end

