-- ==== Sys2Proof/Machine/Ops.lean ====
section
/-! DEFINITION. The named operations every command is built from: writing a register, answering (and raising a
status, the block's one error mechanism, spec/60_exceptions.md R161), the two bus primitives of
spec/20_memory.md R52 and R53, the two bridge events of R170, and accepting a command. -/

namespace Sys2Proof.Machine

open Sys2Proof

/-! ### Writing one piece of state -/

/-- Write the five PCR masks (spec/10_state.md R21 to R25). -/
def State.setMasks (s : State) (wm wmu rm pd pu : Byte) : State :=
  { s with wm := wm, wmu := wmu, rm := rm, pd := pd, pu := pu }

/-- `BUF <- b` (R28). -/
def State.setBuf (s : State) (b : Byte) : State := { s with buf := b }

/-- `WBUF <- b` (R29). -/
def State.setWbuf (s : State) (b : Byte) : State := { s with wbuf := b }

/-- `TS <- t` (R30). -/
def State.setTs (s : State) (t : Nat) : State := { s with ts := t }

/-- `PHASE <- b` (R35). -/
def State.setPhase (s : State) (b : Byte) : State := { s with phase := b }

/-- Overwrite the response (R38). -/
def State.setResp (s : State) (r : Response) : State := { s with resp := r }

/-- The block is stuck in a bus transaction from here on (R57). -/
def State.setStuck (s : State) : State := { s with stuck := true }

/-- Record one thing done on an output port. -/
def State.logEvent (s : State) (e : PortEvent) : State := { s with trace := s.trace ++ [e] }

/-- Replace the bridge's state. -/
def State.setBridge (s : State) (br : Bridge) : State := { s with bridge := br }

/-- What the host agents will still do. -/
def State.setHost (s : State) (h : List HostAction) : State := { s with host := h }

/-! ### Responses and statuses -/

/-- The 3-bit code of a status (spec/60_exceptions.md R160). -/
def Status.code : Status → BitVec 3
  | .ok => 0
  | .invalidConfiguration => 1
  | .deviceUnreachable => 2
  | .illegalCommand => 3

/-- A response whose fields other than STATUS are 0. -/
def Response.ofStatus (st : Status) : Response := ⟨st, 0, 0, false, 0⟩

/-- A response with STATUS = OK and DATA, the other fields 0. -/
def Response.ofData (d : Byte) : Response := ⟨.ok, d, 0, false, 0⟩

/-- `raise st` (spec/00_scope.md R12, spec/60_exceptions.md R161): the command ends with that status.  No state
is saved, restored or rolled back: there is no trap. -/
def raise (st : Status) (s : State) : State := s.setResp (.ofStatus st)

/-- An illegal word: `ILLEGAL_COMMAND` and no other effect (spec/30_encoding.md R79, R80). -/
def rejectWord (s : State) : State := raise .illegalCommand s

/-! ### Sequencing -/

/-- Go on with the value of a part that ended; stay where a part is stuck. -/
def Progress.andThen {α β : Type} (x : Progress α) (k : α → State → Progress β) : Progress β :=
  match x with
  | .done a s => k a s
  | .stuck s => .stuck s

/-- The state a command leaves: with its response where it ended, without one where it is stuck
(spec/20_memory.md R57, R58). -/
def Progress.settle (x : Progress Response) : State :=
  match x with
  | .done r s => s.setResp r
  | .stuck s => s

/-- A command as one atomic step of the block (R58): it always leaves a next state. -/
def commit (x : Progress Response) : Host.Outcome State Fault Refusal := .next x.settle

/-! ### The bus port -/

/-- The answer the next BusWrite gets: one already settled, or a free draw (R52). -/
def State.nextWriteAnswer (s : State) : WriteAnswer :=
  match s.writeAnswers with
  | a :: _ => a
  | [] => Config.freeWriteAnswer s.freeWrites

/-- That answer is used up. -/
def State.takeWriteAnswer (s : State) : State :=
  match s.writeAnswers with
  | _ :: rest => { s with writeAnswers := rest }
  | [] => { s with freeWrites := s.freeWrites + 1 }

/-- The answer the next BusRead gets: one already settled, or a free draw (R53). -/
def State.nextReadAnswer (s : State) : ReadAnswer :=
  match s.readAnswers with
  | a :: _ => a
  | [] => Config.freeReadAnswer s.freeReads

/-- That answer is used up. -/
def State.takeReadAnswer (s : State) : State :=
  match s.readAnswers with
  | _ :: rest => { s with readAnswers := rest }
  | [] => { s with freeReads := s.freeReads + 1 }

/-- The state once a BusWrite of `b` has been put on the bus, whatever comes back. -/
def State.afterWrite (s : State) (b : Byte) : State :=
  s.takeWriteAnswer.logEvent (.busWrite s.cfg.devAddr b s.nextWriteAnswer)

/-- The state once a BusRead has been put on the bus, whatever comes back. -/
def State.afterRead (s : State) : State :=
  s.takeReadAnswer.logEvent (.busRead s.cfg.devAddr s.nextReadAnswer)

/-- `BusWrite(DEV_ADDR, b)`: true for ACK, false for NACK (R52). -/
def busWrite (b : Byte) (s : State) : Progress Bool :=
  match s.nextWriteAnswer with
  | .ack => .done true (s.afterWrite b)
  | .nack => .done false (s.afterWrite b)
  | .never => .stuck (s.afterWrite b).setStuck

/-- `BusRead(DEV_ADDR, 1)`: a byte, or none for EMPTY (R53). -/
def busRead (s : State) : Progress (Option Byte) :=
  match s.nextReadAnswer with
  | .byte r => .done (some r) s.afterRead
  | .empty => .done none s.afterRead
  | .never => .stuck s.afterRead.setStuck

/-! ### The events to the host interrupt bridge -/

/-- `emit DETACH` (spec/60_exceptions.md R170, R171). -/
def emitDetach (s : State) : State := (s.logEvent .detach).setBridge s.bridge.detach

/-- `emit REATTACH`. -/
def emitReattach (s : State) : State := (s.logEvent .reattach).setBridge s.bridge.reattach

/-! ### The host's side -/

/-- Accept a command: sample NOW once (spec/10_state.md R33) and take `POS_IN` (spec/30_encoding.md R78).  The
clock moves forward by `advance` milliseconds and both ports carry their low bits. -/
def State.accept (s : State) (rest : List HostAction) (posIn advance : Nat) : State :=
  { s with
    host := rest
    now := (s.now + advance) % 2 ^ s.cfg.tsW
    posIn := posIn % 2 ^ s.cfg.posW }

/-- A command presented before everything else the host will do, with the ports as they stand. -/
def State.present (s : State) (w : CmdWord) : State :=
  s.setHost (.command w s.posIn 0 :: s.host)

end Sys2Proof.Machine
end

