-- ==== Sys2Proof/Machine/Operands.lean ====
section
/-! DEFINITION. Reading and writing one pin's bit of a mask (spec/00_scope.md R8, R9), and the bytes and bits
the commands compute from the registers. -/

namespace Sys2Proof.Machine

open Sys2Proof

/-- `R[p]` (R8). -/
def pinBit (r : Byte) (p : Pin) : Bool := r.getLsbD p.val

/-- `1 << p` (R8). -/
def pinMask (p : Pin) : Byte := 1#8 <<< p.val

/-- `R[p] <- v`, the other seven bits unchanged (R8). -/
def setPinBit (r : Byte) (p : Pin) (v : Bool) : Byte :=
  if v then r ||| pinMask p else r &&& ~~~(pinMask p)

/-- The eight pins in the order of `for i in 0..7` (R13). -/
def allPins : List Pin := [0, 1, 2, 3, 4, 5, 6, 7]

/-- `expected(p)`, the default level of a pin (spec/10_state.md R36). -/
def expected (p : Pin) (s : State) : Bool := pinBit s.pu p

/-- `latched(p) = (PD[p] & BUF[p]) | (PU[p] & ~BUF[p])` (R36). -/
def latched (p : Pin) (s : State) : Bool :=
  (pinBit s.pd p && pinBit s.buf p) || (pinBit s.pu p && !pinBit s.buf p)

/-- The initial byte of ACT, `WMU | PU` (spec/41_iobuffer.md R110). -/
def initialByte (s : State) : Byte := s.wmu ||| s.pu

/-- The byte Transmit sends, `(WBUF & WM) | (WMU & ~WM)` (R111). -/
def outputByte (s : State) : Byte := (s.wbuf &&& s.wm) ||| (s.wmu &&& ~~~s.wm)

/-- The qualifying-edge mask `q = (PD & r) | (PU & ~r)` (R112). -/
def qualifyingEdges (r : Byte) (s : State) : Byte := (s.pd &&& r) ||| (s.pu &&& ~~~r)

/-- `BUF` with the read-mode bits of `r` merged in, `(BUF & ~RM) | (r & RM)` (R112). -/
def mergedByte (r : Byte) (s : State) : Byte := (s.buf &&& ~~~s.rm) ||| (r &&& s.rm)

end Sys2Proof.Machine
end

