-- ==== Sys2Proof/Machine/PinConfig.lean ====
section
/-! DEFINITION. The pin configuration register file: CFG (spec/40_pinconfig.md R100 to R103). -/

namespace Sys2Proof.Machine

open Sys2Proof

/-- The masks after configuring pin `p` in a recognized direction (R101). -/
def configurePin (p : Pin) (isOutput pullDown pullUp : Bool) (wmu : Byte) (s : State) : State :=
  s.setMasks (setPinBit s.wm p isOutput) wmu (setPinBit s.rm p (!isOutput))
    (setPinBit s.pd p pullDown) (setPinBit s.pu p pullUp)

/-- CFG (R100). -/
def execCfg (p : Pin) (dir : Direction) (lvl : Bool) (s : State) : Host.Outcome State Fault Refusal :=
  match dir with
  | .output => .next (raise .ok (configurePin p true false false (setPinBit s.wmu p lvl) s))
  | .inputPullDown => .next (raise .ok (configurePin p false true false s.wmu s))
  | .inputPullUp => .next (raise .ok (configurePin p false false true s.wmu s))
  | .unrecognized => .next (raise .invalidConfiguration s)

end Sys2Proof.Machine
end

