-- ==== Sys2Proof/Machine/Flags.lean ====
section
/-! DEFINITION. What the block computes and compares: the debounce comparator (spec/10_state.md R34) and the
decision table, delta, CHANGED flag and position of the encoder (spec/42_quadrature.md R141 to R145). -/

namespace Sys2Proof.Machine

open Sys2Proof

/-- `elapsed(now, ts) = (now - ts) (mod 2^TS_W)`, as an unsigned number (R34). -/
def elapsed (w now ts : Nat) : Nat := (BitVec.ofNat w now - BitVec.ofNat w ts).toNat

/-- The window has expired iff `elapsed(NOW, TS) > DEBOUNCE_MS` (R34). -/
def windowExpired (s : State) : Bool := decide (s.cfg.debounceMs < elapsed s.cfg.tsW s.now s.ts)

/-- `{prevA, prevB, curA, curB}`, `prevA` most significant (R141). -/
def combinedPhase (prevA prevB curA curB : Bool) : BitVec 4 :=
  BitVec.ofBool prevA ++ BitVec.ofBool prevB ++ BitVec.ofBool curA ++ BitVec.ofBool curB

/-- The decision table with REV = 0 (R141), as the 2-bit DELTA of spec/30_encoding.md R83. -/
def quadratureCount (combined : BitVec 4) : BitVec 2 :=
  if combined = 0b1101 ∨ combined = 0b0010 then 0b01
  else if combined = 0b1110 ∨ combined = 0b0001 then 0b11
  else 0b00

/-- DELTA: REV = 1 negates the count (R141, R144). -/
def quadratureDelta (combined : BitVec 4) (rev : Bool) : BitVec 2 :=
  if rev then -(quadratureCount combined) else quadratureCount combined

/-- `POS_IN + sext_POS_W(DELTA) (mod 2^POS_W)` (R145). -/
def positionAfter (w posIn : Nat) (delta : BitVec 2) : Nat :=
  (BitVec.ofNat w posIn + delta.signExtend w).toNat

/-- The response of ENC (R142). -/
def encResponse (delta : BitVec 2) (s : State) : Response :=
  { status := .ok
    data := 0
    delta := delta
    changed := decide (delta ≠ 0)
    posOut := positionAfter s.cfg.posW s.posIn delta }

end Sys2Proof.Machine
end

