-- ==== Sys2Proof/Machine/IoBuffer.lean ====
section
/-! DEFINITION. The debounce-gated read cache and the write path: the helper procedures Transmit, PhysicalRead
and ReadPin and the commands ACT, RD, WR, WRA and RDA (spec/41_iobuffer.md R110 to R117). -/

namespace Sys2Proof.Machine

open Sys2Proof

/-! ### Helper procedures -/

/-- Transmit() (R111): true for ACK. -/
def transmit (s : State) : Progress Bool := busWrite (outputByte s) s

/-- The merge of PhysicalRead (R112): a byte without a qualifying edge is discarded whole. -/
def mergeByte (r : Byte) (s : State) : State :=
  if qualifyingEdges r s = 0#8 then s else s.setBuf (mergedByte r s)

/-- PhysicalRead(now) (R112). -/
def physicalRead (s : State) : Progress Unit :=
  (busWrite s.rm (s.setTs s.now)).andThen fun acked s1 =>
    if acked then
      (busRead s1).andThen fun got s2 =>
        match got with
        | none => .done () s2
        | some r => .done () (mergeByte r s2)
    else .done () s1

/-- Step 5 of ReadPin (R113): the edge latch of pin `p` is consumed, with `value` the level in BUF. -/
def consumeLatch (p : Pin) (s : State) : State :=
  if pinBit s.pd p && pinBit s.buf p then s.setBuf (setPinBit s.buf p false)
  else if pinBit s.pu p && !pinBit s.buf p then s.setBuf (setPinBit s.buf p true)
  else s

/-- Steps 4 and 6 of ReadPin (R113): the level in BUF, or WBUF for an output pin. -/
def pinValue (p : Pin) (s : State) : Bool :=
  if pinBit s.wm p then pinBit s.wbuf p else pinBit s.buf p

/-- ReadPin(p, f, now) (R113). -/
def readPin (p : Pin) (force : Bool) (s : State) : Progress Bool :=
  (if !latched p s && (force || windowExpired s) then physicalRead s else .done () s).andThen
    fun _ s1 => .done (pinValue p s1) (consumeLatch p s1)

/-- The loop of RDA over the pins (R117), collecting DATA. -/
def readPins : List Pin → Byte → State → Byte × State
  | [], data, s => (data, s)
  | i :: rest, data, s => readPins rest (setPinBit data i (pinValue i s)) (consumeLatch i s)

/-- How WR and WRA end after Transmit (R115, R116). -/
def transmitStatus (acked : Bool) : Response :=
  .ofStatus (if acked then .ok else .deviceUnreachable)

/-! ### Commands -/

/-- ACT (R110). -/
def execAct (s : State) : Host.Outcome State Fault Refusal :=
  commit
    (if s.wm ||| s.rm = 0#8 then .done (.ofStatus .ok) s
     else
      (busWrite (initialByte s) s).andThen fun acked s1 =>
        if acked then
          .done (.ofStatus .ok) (((s1.setBuf (initialByte s)).setWbuf (initialByte s)).setTs s.now)
        else .done (.ofStatus .deviceUnreachable) s1)

/-- RD (R114). -/
def execRd (p : Pin) (force : Bool) (s : State) : Host.Outcome State Fault Refusal :=
  commit ((readPin p force s).andThen fun v s1 => .done (.ofData ((BitVec.ofBool v).setWidth 8)) s1)

/-- WR (R115). -/
def execWr (p : Pin) (v : Bool) (s : State) : Host.Outcome State Fault Refusal :=
  commit ((transmit (s.setWbuf (setPinBit s.wbuf p v))).andThen fun acked s1 =>
    .done (transmitStatus acked) s1)

/-- WRA (R116). -/
def execWra (levels : Byte) (s : State) : Host.Outcome State Fault Refusal :=
  commit ((transmit (s.setWbuf levels)).andThen fun acked s1 => .done (transmitStatus acked) s1)

/-- RDA (R117). -/
def execRda (s : State) : Host.Outcome State Fault Refusal :=
  commit
    ((if windowExpired s then physicalRead s else .done () s).andThen fun _ s1 =>
      .done (.ofData (readPins allPins 0#8 s1).1) (readPins allPins 0#8 s1).2)

end Sys2Proof.Machine
end

