-- ==== Sys2Proof/Machine/Quadrature.lean ====
section
/-! DEFINITION. The quadrature edge-pair decoder: ENC (spec/42_quadrature.md R140 to R149). -/

namespace Sys2Proof.Machine

open Sys2Proof

/-- `if PHASE[p] != cur: PHASE[p] <- cur` (R142). -/
def recordPhase (p : Pin) (cur : Bool) (s : State) : State :=
  if pinBit s.phase p ≠ cur then s.setPhase (setPinBit s.phase p cur) else s

/-- What ENC does once both levels are known: the phase update, REATTACH and the response (R142). -/
def finishPoll (a b : Pin) (rev prevA prevB curA curB : Bool) (s : State) : Progress Response :=
  .done (encResponse (quadratureDelta (combinedPhase prevA prevB curA curB) rev) s)
    (emitReattach (recordPhase b curB (recordPhase a curA s)))

/-- ENC (R142): DETACH, the two forced reads, pin A first, then the rest. -/
def execEnc (a b : Pin) (rev : Bool) (s : State) : Host.Outcome State Fault Refusal :=
  commit
    ((readPin a true (emitDetach s)).andThen fun curA s1 =>
      (readPin b true s1).andThen fun curB s2 =>
        finishPoll a b rev (pinBit s.phase a) (pinBit s.phase b) curA curB s2)

end Sys2Proof.Machine
end

