-- ==== Sys2Proof/Machine/Dispatch.lean ====
section
/-! DEFINITION. One arm for each command of spec/opcode_table.json. -/

namespace Sys2Proof.Machine

open Sys2Proof

/-- What an accepted command does, as one atomic step of the block (spec/20_memory.md R58). -/
def exec (i : Instr) (s : State) : Host.Outcome State Fault Refusal :=
  match i with
  | .cfg p dir lvl => Sys2Proof.Machine.execCfg p dir lvl s
  | .act => Sys2Proof.Machine.execAct s
  | .rd p force => Sys2Proof.Machine.execRd p force s
  | .wr p v => Sys2Proof.Machine.execWr p v s
  | .wra levels => Sys2Proof.Machine.execWra levels s
  | .rda => Sys2Proof.Machine.execRda s
  | .enc a b rev => Sys2Proof.Machine.execEnc a b rev s

end Sys2Proof.Machine
end

