-- ==== Sys2Proof/Machine/Accept.lean ====
section
/-! DEFINITION. What one action of the host does: a command word goes through acceptance, the decode check and
execution; a bridge call goes to the host interrupt bridge (spec/60_exceptions.md R167, R171). -/

namespace Sys2Proof.Machine

open Sys2Proof

/-- Run one accepted word: decode first, then execute (R167). -/
def runWord (w : CmdWord) (s : State) : Host.Outcome State Fault Refusal :=
  match decode w with
  | .instr i => exec i s
  | .illegal _ => .next (rejectWord s)

/-- Perform one action of the host.  A stuck block accepts no further command (spec/20_memory.md R57); the
bridge is no part of the block and is not stuck with it. -/
def perform (a : HostAction) (rest : List HostAction) (s : State) : Host.Outcome State Fault Refusal :=
  match a with
  | .command w posIn advance =>
    if s.stuck then .fault .stuckOnBus else runWord w (s.accept rest posIn advance)
  | .attach line callback edge =>
    .next ((s.setHost rest).setBridge (s.bridge.attachCall line callback edge))
  | .detach => .next ((s.setHost rest).setBridge s.bridge.detach)
  | .reattach => .next ((s.setHost rest).setBridge s.bridge.reattach)

end Sys2Proof.Machine
end

