-- ==== Sys2Proof/Machine/Assembly.lean ====
section
/-! DEFINITION. How a host writes commands: the assembler forms of spec/30_encoding.md R84, and the source's software
calls with the commands they expand to (R85). -/

namespace Sys2Proof.Machine

open Sys2Proof

/-! ### Assembler forms (R84) -/

/-- One line of the assembler syntax.  There is no line for an input direction with LVL = 1 and none for
DIR = 0b11: R84 writes those words with `.word`. -/
inductive AsmLine where
  /-- `CFG p, OUT, lvl`. -/
  | cfgOut (p : Pin) (lvl : Bool)
  /-- `CFG p, IN_PD`. -/
  | cfgInPd (p : Pin)
  /-- `CFG p, IN_PU`. -/
  | cfgInPu (p : Pin)
  | act
  | rd (p : Pin) (f : Bool)
  | wr (p : Pin) (v : Bool)
  | wra (levels : Byte)
  | rda
  | enc (a b : Pin) (r : Bool)
  /-- `.word 0xHHHH`, legal or not. -/
  | word (w : CmdWord)
  deriving DecidableEq, Repr

/-- The word a line stands for (R84). -/
def assemble : AsmLine → CmdWord
  | .cfgOut p lvl => encode (.cfg p .output lvl)
  | .cfgInPd p => encode (.cfg p .inputPullDown false)
  | .cfgInPu p => encode (.cfg p .inputPullUp false)
  | .act => encode .act
  | .rd p f => encode (.rd p f)
  | .wr p v => encode (.wr p v)
  | .wra levels => encode (.wra levels)
  | .rda => encode .rda
  | .enc a b r => encode (.enc a b r)
  | .word w => w

/-! ### The source's calls (R85) -/

/-- The pull policy of an input `configure`: none is "no explicit pull". -/
inductive Pull where
  | none
  | down
  | up
  deriving DecidableEq, Repr

/-- A software call of the source.  `position` is the `POS_W`-bit pattern of the encoder position. -/
inductive SourceCall where
  /-- `configure(pin, Output, level)`, the level absent or given. -/
  | configureOutput (p : Pin) (level : Option Bool)
  /-- `configure(pin, input)`. -/
  | configureInput (p : Pin) (pull : Pull)
  /-- `activate()`, also `begin`. -/
  | activate
  /-- `digitalRead(pin, forceNow)`, forceNow absent or given. -/
  | digitalRead (p : Pin) (forceNow : Option Bool)
  | digitalWrite (p : Pin) (value : Bool)
  /-- `digitalWriteAllArray(levels)` and `digitalWriteAll(struct)`: element or field `i` for pin `i`. -/
  | digitalWriteAll (levels : Vector Bool 8)
  /-- `digitalReadAll()`, `digitalReadAllArray()`, `digitalReadAllByte()`. -/
  | digitalReadAll
  | readEncoderValue (pinA pinB : Pin) (position : Nat) (reversed : Bool)
  /-- The bridge's `attach(line, callback, edgeKind)`, the edge kind absent or given. -/
  | attach (line callback : Nat) (edge : Option EdgeKind)
  | detach
  | reattach
  deriving DecidableEq, Repr

/-- The byte with bit `i` for element `i` (spec/00_scope.md R8, spec/41_iobuffer.md R116). -/
def packLevels (levels : Vector Bool 8) : Byte :=
  allPins.foldl (fun b p => setPinBit b p levels[p]) 0#8

/-- A host agent presents an assembled line, with `posIn` on POS_IN, `advance` milliseconds after the last sample
of NOW. -/
def AsmLine.issue (line : AsmLine) (posIn advance : Nat) : HostAction := .command (assemble line) posIn advance

/-- What a host agent does for a call, `advance` milliseconds after the last sample of NOW: the one command it
expands to, or a call of the interrupt bridge (R85).  POS_IN matters for an encoder read alone (R78). -/
def SourceCall.expand (c : SourceCall) (advance : Nat) : HostAction :=
  match c with
  | .configureOutput p level => (AsmLine.cfgOut p (level.getD false)).issue 0 advance
  | .configureInput p .none => (AsmLine.cfgInPd p).issue 0 advance
  | .configureInput p .down => (AsmLine.cfgInPd p).issue 0 advance
  | .configureInput p .up => (AsmLine.cfgInPu p).issue 0 advance
  | .activate => AsmLine.act.issue 0 advance
  | .digitalRead p forceNow => (AsmLine.rd p (forceNow.getD false)).issue 0 advance
  | .digitalWrite p value => (AsmLine.wr p value).issue 0 advance
  | .digitalWriteAll levels => (AsmLine.wra (packLevels levels)).issue 0 advance
  | .digitalReadAll => AsmLine.rda.issue 0 advance
  | .readEncoderValue a b position reversed => (AsmLine.enc a b reversed).issue position advance
  | .attach line callback edge => .attach line callback edge
  | .detach => .detach
  | .reattach => .reattach

/-- What `digitalReadAll` and `digitalReadAllArray` return: field or element `i` is `DATA[i]` (R85). -/
def levelsOfData (data : Byte) : Vector Bool 8 := Vector.ofFn fun i => pinBit data i

/-- What `read_encoder_value` returns: `(CHANGED, POS_OUT)` (R85). -/
def encoderResult (r : Response) : Bool × Nat := (r.changed, r.posOut)

end Sys2Proof.Machine
end

