-- ==== Sys2Proof/Safety.lean ====
section
/-! DEFINITION. What counts as a safe run, in the terms the claims use: the invariant of the state, what a command
put on the ports, and the levels and counts of the spec's tables written pin by pin, apart from the model. -/

namespace Sys2Proof.Machine

open Sys2Proof

/-! ### The invariant -/

/-- The PCR invariant in the mask form of spec/10_state.md R26. -/
abbrev State.pcrInv (s : State) : Prop :=
  s.wm &&& s.rm = 0#8 ∧ s.pd &&& s.pu = 0#8 ∧ s.pd ||| s.pu = s.rm

/-- The timestamp, the sampled ports and POS_OUT fit their widths (R7, R30, R33, R38). -/
abbrev State.widthInv (s : State) : Prop :=
  s.ts < 2 ^ s.cfg.tsW ∧ s.now < 2 ^ s.cfg.tsW ∧ s.posIn < 2 ^ s.cfg.posW ∧ s.resp.posOut < 2 ^ s.cfg.posW

/-- CHANGED is 1 iff DELTA is not 0, and DELTA is never -2 (R38, spec/30_encoding.md R83). -/
abbrev Response.legal (r : Response) : Prop :=
  r.delta ≠ 0b10 ∧ r.changed = decide (r.delta ≠ 0)

/-- A bus transaction goes to the one address (spec/20_memory.md R50). -/
def PortEvent.addressedTo (a : Nat) : PortEvent → Bool
  | .busWrite addr _ _ => addr == a
  | .busRead addr _ => addr == a
  | .detach => true
  | .reattach => true

/-- A BusRead comes right after a BusWrite that was acknowledged (spec/41_iobuffer.md R112).  `acked` says
whether the event before the list was one. -/
def readsFollowAck (acked : Bool) : List PortEvent → Bool
  | [] => true
  | .busWrite _ _ answer :: rest => readsFollowAck (answer == .ack) rest
  | .busRead _ _ :: rest => acked && readsFollowAck false rest
  | .detach :: rest => readsFollowAck false rest
  | .reattach :: rest => readsFollowAck false rest

/-- Every bus transaction so far went to DEV_ADDR, and every BusRead followed an acknowledged BusWrite. -/
abbrev State.busInv (s : State) : Prop :=
  s.trace.all (·.addressedTo s.cfg.devAddr) = true ∧ readsFollowAck false s.trace = true

/-- The bridge is attached only with parameters to attach again (spec/60_exceptions.md R171). -/
abbrev Bridge.legal (br : Bridge) : Prop := br.attached = true → br.last.isSome = true

/-- The invariant of the machine. -/
abbrev State.Inv (s : State) : Prop :=
  s.cfg.wf ∧ s.pcrInv ∧ s.widthInv ∧ s.resp.legal ∧ s.busInv ∧ s.bridge.legal

/-! ### What a command put on the ports -/

/-- The event is a bus transaction. -/
def PortEvent.isBus : PortEvent → Bool
  | .busWrite _ _ _ => true
  | .busRead _ _ => true
  | .detach => false
  | .reattach => false

/-- The event is a BusWrite. -/
def PortEvent.isBusWrite : PortEvent → Bool
  | .busWrite _ _ _ => true
  | .busRead _ _ => false
  | .detach => false
  | .reattach => false

/-- How many BusWrites a list of events holds. -/
def busWrites (l : List PortEvent) : Nat := l.countP PortEvent.isBusWrite

/-- How many BusReads a list of events holds. -/
def busReads (l : List PortEvent) : Nat := l.countP fun e => e.isBus && !e.isBusWrite

/-- The first physical read from `s` never returns: its BusWrite does not, or the BusRead after an acknowledged one
(spec/20_memory.md R57). -/
abbrev firstReadNeverReturns (s : State) : Prop :=
  s.nextWriteAnswer = .never ∨ s.nextWriteAnswer = .ack ∧ s.nextReadAnswer = .never

/-! ### The spec's tables and procedures, pin by pin -/

/-- Some configured input pin of the byte `r` shows a qualifying edge (R112). -/
def showsEdge (r : Byte) (s : State) : Bool :=
  allPins.any fun j => (pinBit s.pd j && pinBit r j) || (pinBit s.pu j && !pinBit r j)

/-- The level BUF holds for pin `q` once the byte `r` has been read (R112): the new level on a read-mode pin if
some pin shows an edge, else the old one. -/
def levelAfterRead (r : Byte) (s : State) (q : Pin) : Bool :=
  if showsEdge r s && pinBit s.rm q then pinBit r q else pinBit s.buf q

/-- The level BUF holds for pin `p` once the level `v` has been reported (R113 step 5). -/
def levelAfterReport (s : State) (p : Pin) (v : Bool) : Bool :=
  if pinBit s.pd p && v then false else if pinBit s.pu p && !v then true else v

/-- What a read of pin `p` reports when BUF holds the level `v` (R113 steps 4 and 6). -/
def reported (s : State) (p : Pin) (v : Bool) : Bool := if pinBit s.wm p then pinBit s.wbuf p else v

/-- DATA of RD: the value in bit 0 (R114). -/
def rdData (v : Bool) : Byte := if v then 1 else 0

/-- The decision table of spec/42_quadrature.md R141 row by row: prevA, prevB, curA, curB to the count. -/
def tableCount : Bool → Bool → Bool → Bool → Int
  | false, false, false, false => 0
  | false, false, false, true  => -1
  | false, false, true,  false => 1
  | false, false, true,  true  => 0
  | false, true,  false, false => 0
  | false, true,  false, true  => 0
  | false, true,  true,  false => 0
  | false, true,  true,  true  => 0
  | true,  false, false, false => 0
  | true,  false, false, true  => 0
  | true,  false, true,  false => 0
  | true,  false, true,  true  => 0
  | true,  true,  false, false => 0
  | true,  true,  false, true  => 1
  | true,  true,  true,  false => -1
  | true,  true,  true,  true  => 0

/-- The count with the REV column of R141. -/
def tableDelta (prevA prevB curA curB rev : Bool) : Int :=
  if rev then -(tableCount prevA prevB curA curB) else tableCount prevA prevB curA curB

/-- The response of ENC for a count `d` (R142, R145). -/
def pollResponse (s : State) (d : Int) : Response :=
  ⟨.ok, 0, BitVec.ofInt 2 d, decide (d ≠ 0), ((s.posIn + d) % 2 ^ s.cfg.posW).toNat⟩

end Sys2Proof.Machine
end

