-- ==== Sys2Proof/Certificates/Slice0/Obligations.lean ====
section
/-! DEFINITION. The statements for the provers, in the order of the spec's files: encoding and the step, the pin
configuration, the read cache and write path, the encoder, statuses and the bridge, and the rules of the whole
machine. -/

open Sys2Proof Sys2Proof.Machine

/-! ### Encoding (spec/30_encoding.md) -/

/-- Decoding an encoded instruction gives it back, for every instruction with every operand. -/
def Obligations.DecodeOfEncode : Prop := ∀ i : Instr, decode (encode i) = .instr i

/-- Encoding what was decoded gives the word back: no two words mean the same command. -/
def Obligations.EncodeOfDecode : Prop :=
  ∀ (w : CmdWord) (i : Instr), decode w = .instr i → encode i = w

/-- The decoder agrees with the opcode map of R76 on every word: a decoded word selects exactly its own row, and
an illegal word selects none.  So at most one row matches any word. -/
def Obligations.DecodeAgreesWithOpcodeMap : Prop :=
  ∀ w : CmdWord,
    (opcodeTable.filter (·.selects w)).map (·.mnemonic) =
      match decode w with
      | .instr i => [i.mnemonic]
      | .illegal _ => []

/-- The words of the spec's own examples, one for each command. -/
def Obligations.ExampleWordsDecode : Prop :=
  decode 0x1304 = .instr (.cfg 3 .output true) ∧ decode 0x2000 = .instr .act ∧
  decode 0x3701 = .instr (.rd 7 true) ∧ decode 0x4001 = .instr (.wr 0 true) ∧
  decode 0x5055 = .instr (.wra 0x55) ∧ decode 0x6000 = .instr .rda ∧
  decode 0x7011 = .instr (.enc 0 1 true)

/-- An assembled line decodes to the command its mnemonic and operands name, with LVL 0 for the input directions;
`.word` is the word itself (R84). -/
def Obligations.AssembledLinesDecode : Prop :=
  ∀ line : AsmLine,
    match line with
    | .cfgOut p lvl => decode (assemble line) = .instr (.cfg p .output lvl)
    | .cfgInPd p => decode (assemble line) = .instr (.cfg p .inputPullDown false)
    | .cfgInPu p => decode (assemble line) = .instr (.cfg p .inputPullUp false)
    | .act => decode (assemble line) = .instr .act
    | .rd p f => decode (assemble line) = .instr (.rd p f)
    | .wr p v => decode (assemble line) = .instr (.wr p v)
    | .wra levels => decode (assemble line) = .instr (.wra levels)
    | .rda => decode (assemble line) = .instr .rda
    | .enc a b r => decode (assemble line) = .instr (.enc a b r)
    | .word w => assemble line = w

/-- The source's bulk write packs element `i` into bit `i`, so the bulk read's array form gives back the array that
was packed (R85, R116). -/
def Obligations.BulkLevelsUnpack : Prop :=
  ∀ levels : Vector Bool 8,
    (∀ p : Pin, pinBit (packLevels levels) p = levels[p]) ∧ levelsOfData (packLevels levels) = levels

/-! ### The step -/

/-- A step runs the decoded command: the host's first action is taken, NOW and POS_IN are sampled, and the
instruction executes. -/
def Obligations.StepRunsDecodedCommand : Prop :=
  ∀ (s : State) (w : CmdWord) (pos adv : Nat) (rest : List HostAction) (i : Instr),
    s.stuck = false → s.host = .command w pos adv :: rest → decode w = .instr i →
    step s = exec i { s with
      host := rest
      now := (s.now + adv) % 2 ^ s.cfg.tsW
      posIn := pos % 2 ^ s.cfg.posW }

/-- A word placed by withFetchWord is what the next step runs, on the state as it stands. -/
def Obligations.PlacedWordRunsNext : Prop :=
  ∀ (s : State) (nbits w : Nat) (i : Instr),
    s.stuck = false → s.now < 2 ^ s.cfg.tsW → s.posIn < 2 ^ s.cfg.posW →
    decodeTableWord nbits w = some i → step (s.withFetchWord nbits w) = exec i s

/-- A reserved opcode answers ILLEGAL_COMMAND and does nothing else (R79).  That the word is the first of a list of
host actions, and that NOW and POS_IN are sampled for an illegal word too, is the model's choice
(notes/assumptions/5.md, notes/assumptions/6.md). -/
def Obligations.ReservedOpcodeOnlyAnswers : Prop :=
  ∀ (s : State) (w : CmdWord) (pos adv : Nat) (rest : List HostAction),
    s.stuck = false → s.host = .command w pos adv :: rest →
    ((w >>> 12).toNat = 0 ∨ 8 ≤ (w >>> 12).toNat) →
    step s = .next { s with
      host := rest
      now := (s.now + adv) % 2 ^ s.cfg.tsW
      posIn := pos % 2 ^ s.cfg.posW
      resp := ⟨.illegalCommand, 0, 0, false, 0⟩ }

/-- A defined opcode with a 1 in a reserved bit of its format is handled in the same way, and these are exactly
the words with a defined opcode that match no row of the opcode map (R80).  The host's list and the sampled ports
are the model's choice, as in ReservedOpcodeOnlyAnswers (notes/assumptions/5.md, notes/assumptions/6.md). -/
def Obligations.ReservedBitOnlyAnswers : Prop :=
  ∀ (s : State) (w : CmdWord) (pos adv : Nat) (rest : List HostAction),
    s.stuck = false → s.host = .command w pos adv :: rest →
    1 ≤ (w >>> 12).toNat → (w >>> 12).toNat ≤ 7 →
    let reserved : CmdWord :=
      match (w >>> 12).toNat with
      | 1 => 0x08F8
      | 2 => 0x0FFF
      | 3 => 0x08FE
      | 4 => 0x08FE
      | 5 => 0x0F00
      | 6 => 0x0FFF
      | _ => 0x088E
    (w &&& reserved ≠ 0 ↔ wellFormedWord w = false) ∧
    (w &&& reserved ≠ 0 →
      step s = .next { s with
        host := rest
        now := (s.now + adv) % 2 ^ s.cfg.tsW
        posIn := pos % 2 ^ s.cfg.posW
        resp := ⟨.illegalCommand, 0, 0, false, 0⟩ })

/-- Reset leaves every register and every response field 0 (R40). -/
def Obligations.ResetValues : Prop :=
  State.reset.wm = 0 ∧ State.reset.wmu = 0 ∧ State.reset.rm = 0 ∧ State.reset.pd = 0 ∧ State.reset.pu = 0 ∧
  State.reset.buf = 0 ∧ State.reset.wbuf = 0 ∧ State.reset.ts = 0 ∧ State.reset.phase = 0 ∧
  State.reset.resp.status.code = 0 ∧ State.reset.resp.data = 0 ∧ State.reset.resp.delta = 0 ∧
  State.reset.resp.changed = false ∧ State.reset.resp.posOut = 0

/-! ### CFG (spec/40_pinconfig.md) -/

/-- CFG completes and writes the row of the direction table (R101) into the five bits of its pin; the other
seven pins, and everything but the masks and the response, stay.  The row is the one of the word's field DIR. -/
def Obligations.CfgWritesDirectionRow : Prop :=
  ∀ (p : Pin) (dir : Direction) (lvl : Bool) (s : State),
    (∀ w : CmdWord, decode w = .instr (.cfg p dir lvl) →
      w.extractLsb' 0 2 =
        match dir with
        | .output => 0b00
        | .inputPullDown => 0b01
        | .inputPullUp => 0b10
        | .unrecognized => 0b11) ∧ ∃ t : State,
    exec (.cfg p dir lvl) s = .next t ∧
    t = { s with
      wm := t.wm, wmu := t.wmu, rm := t.rm, pd := t.pd, pu := t.pu
      resp := ⟨if dir = .unrecognized then .invalidConfiguration else .ok, 0, 0, false, 0⟩ } ∧
    (∀ q : Pin, q ≠ p →
      pinBit t.wm q = pinBit s.wm q ∧ pinBit t.wmu q = pinBit s.wmu q ∧ pinBit t.rm q = pinBit s.rm q ∧
      pinBit t.pd q = pinBit s.pd q ∧ pinBit t.pu q = pinBit s.pu q) ∧
    match dir with
    | .output => pinBit t.wm p = true ∧ pinBit t.rm p = false ∧ pinBit t.pd p = false ∧
        pinBit t.pu p = false ∧ pinBit t.wmu p = lvl
    | .inputPullDown => pinBit t.wm p = false ∧ pinBit t.rm p = true ∧ pinBit t.pd p = true ∧
        pinBit t.pu p = false ∧ t.wmu = s.wmu
    | .inputPullUp => pinBit t.wm p = false ∧ pinBit t.rm p = true ∧ pinBit t.pd p = false ∧
        pinBit t.pu p = true ∧ t.wmu = s.wmu
    | .unrecognized => t.wm = s.wm ∧ t.rm = s.rm ∧ t.pd = s.pd ∧ t.pu = s.pu ∧ t.wmu = s.wmu

/-! ### ACT, WR, WRA (spec/41_iobuffer.md) -/

/-- ACT completes as R110 says: nothing at all with no pin configured; else one BusWrite of WMU | PU, and on ACK
the caches and the timestamp are seeded, on NACK nothing is.  If the bus never returns there is no response. -/
def Obligations.ActBringsUp : Prop :=
  ∀ s : State,
    (s.wm ||| s.rm = 0#8 → exec .act s = .next { s with resp := ⟨.ok, 0, 0, false, 0⟩ }) ∧
    (s.wm ||| s.rm ≠ 0#8 → s.nextWriteAnswer = .ack →
      exec .act s = .next { s.takeWriteAnswer with
        buf := s.wmu ||| s.pu
        wbuf := s.wmu ||| s.pu
        ts := s.now
        trace := s.trace ++ [.busWrite s.cfg.devAddr (s.wmu ||| s.pu) .ack]
        resp := ⟨.ok, 0, 0, false, 0⟩ }) ∧
    (s.wm ||| s.rm ≠ 0#8 → s.nextWriteAnswer = .nack →
      exec .act s = .next { s.takeWriteAnswer with
        trace := s.trace ++ [.busWrite s.cfg.devAddr (s.wmu ||| s.pu) .nack]
        resp := ⟨.deviceUnreachable, 0, 0, false, 0⟩ }) ∧
    (s.wm ||| s.rm ≠ 0#8 → s.nextWriteAnswer = .never →
      exec .act s = .next { s.takeWriteAnswer with
        trace := s.trace ++ [.busWrite s.cfg.devAddr (s.wmu ||| s.pu) .never]
        stuck := true })

/-- WR completes as R115 says: it writes one bit of WBUF and sends, pin by pin, WBUF for an output pin and WMU
for any other (R111); a NACK is reported and rolls nothing back.  The state a write that never returns leaves is
the model's reading (notes/assumptions/7.md). -/
def Obligations.WrWritesBitAndTransmits : Prop :=
  ∀ (p : Pin) (v : Bool) (s : State) (wb out : Byte),
    (∀ q : Pin, pinBit wb q = if q = p then v else pinBit s.wbuf q) →
    (∀ q : Pin, pinBit out q = if pinBit s.wm q then pinBit wb q else pinBit s.wmu q) →
    (s.nextWriteAnswer = .ack →
      exec (.wr p v) s = .next { s.takeWriteAnswer with
        wbuf := wb
        trace := s.trace ++ [.busWrite s.cfg.devAddr out .ack]
        resp := ⟨.ok, 0, 0, false, 0⟩ }) ∧
    (s.nextWriteAnswer = .nack →
      exec (.wr p v) s = .next { s.takeWriteAnswer with
        wbuf := wb
        trace := s.trace ++ [.busWrite s.cfg.devAddr out .nack]
        resp := ⟨.deviceUnreachable, 0, 0, false, 0⟩ }) ∧
    (s.nextWriteAnswer = .never →
      exec (.wr p v) s = .next { s.takeWriteAnswer with
        wbuf := wb
        trace := s.trace ++ [.busWrite s.cfg.devAddr out .never]
        stuck := true })

/-- WRA completes as R116 says: all of WBUF is written, and the same byte as in WR is sent. -/
def Obligations.WraWritesLevelsAndTransmits : Prop :=
  ∀ (levels : Byte) (s : State) (out : Byte),
    (∀ q : Pin, pinBit out q = if pinBit s.wm q then pinBit levels q else pinBit s.wmu q) →
    (s.nextWriteAnswer = .ack →
      exec (.wra levels) s = .next { s.takeWriteAnswer with
        wbuf := levels
        trace := s.trace ++ [.busWrite s.cfg.devAddr out .ack]
        resp := ⟨.ok, 0, 0, false, 0⟩ }) ∧
    (s.nextWriteAnswer = .nack →
      exec (.wra levels) s = .next { s.takeWriteAnswer with
        wbuf := levels
        trace := s.trace ++ [.busWrite s.cfg.devAddr out .nack]
        resp := ⟨.deviceUnreachable, 0, 0, false, 0⟩ }) ∧
    (s.nextWriteAnswer = .never →
      exec (.wra levels) s = .next { s.takeWriteAnswer with
        wbuf := levels
        trace := s.trace ++ [.busWrite s.cfg.devAddr out .never]
        stuck := true })

/-! ### The debounce comparator and the latch (spec/10_state.md) -/

/-- The window has expired iff (NOW - TS) mod 2^TS_W is strictly greater than DEBOUNCE_MS (R34). -/
def Obligations.WindowComparesModularDifference : Prop :=
  ∀ s : State, s.now < 2 ^ s.cfg.tsW → s.ts < 2 ^ s.cfg.tsW →
    (windowExpired s = true ↔ s.cfg.debounceMs < (s.now + 2 ^ s.cfg.tsW - s.ts) % 2 ^ s.cfg.tsW)

/-- Under the PCR invariant a pin is latched iff it is an input whose BUF bit differs from its default level, so
an output or unconfigured pin never is (R36). -/
def Obligations.LatchedIffInputAwayFromDefault : Prop :=
  ∀ (p : Pin) (s : State), s.pcrInv →
    (latched p s = true ↔ pinBit s.rm p = true ∧ pinBit s.buf p ≠ pinBit s.pu p)

/-! ### RD -/

/-- RD of a latched pin, or unforced inside the window, completes with no bus access: the value comes from BUF
(from WBUF for an output pin) and the latch of that one pin is consumed. -/
def Obligations.RdServedFromCache : Prop :=
  ∀ (p : Pin) (f : Bool) (s : State),
    (latched p s = true ∨ (f = false ∧ windowExpired s = false)) → ∃ t : State,
    exec (.rd p f) s = .next t ∧
    t = { s with
      buf := t.buf
      resp := ⟨.ok, rdData (reported s p (pinBit s.buf p)), 0, false, 0⟩ } ∧
    ∀ q : Pin, pinBit t.buf q =
      if q = p then levelAfterReport s p (pinBit s.buf p) else pinBit s.buf q

/-- RD of a pin that is not latched, forced or past the window, with an answering bus: RM is written, one byte is
read, TS is NOW, every read-mode bit is merged if some pin shows an edge, and then the pin is reported. -/
def Obligations.RdPhysicalReadMerges : Prop :=
  ∀ (p : Pin) (f : Bool) (s : State) (r : Byte),
    latched p s = false → (f = true ∨ windowExpired s = true) →
    s.nextWriteAnswer = .ack → s.nextReadAnswer = .byte r → ∃ t : State,
    exec (.rd p f) s = .next t ∧
    t = { s.takeWriteAnswer.takeReadAnswer with
      ts := s.now
      buf := t.buf
      trace := s.trace ++ [.busWrite s.cfg.devAddr s.rm .ack, .busRead s.cfg.devAddr (.byte r)]
      resp := ⟨.ok, rdData (reported s p (levelAfterRead r s p)), 0, false, 0⟩ } ∧
    ∀ q : Pin, pinBit t.buf q =
      if q = p then levelAfterReport s p (levelAfterRead r s p) else levelAfterRead r s q

/-- RD whose physical read fails, by a NACK (then no BusRead) or by EMPTY, still answers OK: only TS moves. -/
def Obligations.RdFailedReadKeepsCache : Prop :=
  ∀ (p : Pin) (f : Bool) (s : State),
    latched p s = false → (f = true ∨ windowExpired s = true) →
    (s.nextWriteAnswer = .nack →
      exec (.rd p f) s = .next { s.takeWriteAnswer with
        ts := s.now
        trace := s.trace ++ [.busWrite s.cfg.devAddr s.rm .nack]
        resp := ⟨.ok, rdData (reported s p (pinBit s.buf p)), 0, false, 0⟩ }) ∧
    (s.nextWriteAnswer = .ack → s.nextReadAnswer = .empty →
      exec (.rd p f) s = .next { s.takeWriteAnswer.takeReadAnswer with
        ts := s.now
        trace := s.trace ++ [.busWrite s.cfg.devAddr s.rm .ack, .busRead s.cfg.devAddr .empty]
        resp := ⟨.ok, rdData (reported s p (pinBit s.buf p)), 0, false, 0⟩ })

/-- PhysicalRead as a procedure (R112): TS is NOW on every attempt, nothing more on NACK or EMPTY, and a byte is
merged into the read-mode bits only if it shows a qualifying edge. -/
def Obligations.PhysicalReadProcedure : Prop :=
  ∀ s : State,
    (s.nextWriteAnswer = .nack →
      physicalRead s = .done () { s.takeWriteAnswer with
        ts := s.now
        trace := s.trace ++ [.busWrite s.cfg.devAddr s.rm .nack] }) ∧
    (s.nextWriteAnswer = .ack → s.nextReadAnswer = .empty →
      physicalRead s = .done () { s.takeWriteAnswer.takeReadAnswer with
        ts := s.now
        trace := s.trace ++ [.busWrite s.cfg.devAddr s.rm .ack, .busRead s.cfg.devAddr .empty] }) ∧
    (∀ (r b : Byte), s.nextWriteAnswer = .ack → s.nextReadAnswer = .byte r →
      (∀ q : Pin, pinBit b q = levelAfterRead r s q) →
      physicalRead s = .done () { s.takeWriteAnswer.takeReadAnswer with
        ts := s.now
        buf := b
        trace := s.trace ++ [.busWrite s.cfg.devAddr s.rm .ack, .busRead s.cfg.devAddr (.byte r)] })

/-! ### RDA -/

/-- RDA inside the window completes with no bus access, in the mask form of R117: every pin is reported and every
latched pin flipped back. -/
def Obligations.RdaServedFromCache : Prop :=
  ∀ s : State, s.pd &&& s.pu = 0#8 → windowExpired s = false →
    exec .rda s = .next { s with
      buf := (s.buf &&& ~~~(s.pd ||| s.pu)) ||| s.pu
      resp := ⟨.ok, (s.buf &&& ~~~s.wm) ||| (s.wbuf &&& s.wm), 0, false, 0⟩ }

/-- RDA past the window with an answering bus: one physical read, latched pins or not, and then the mask form of
R117 over the byte `v` that BUF holds after it. -/
def Obligations.RdaPhysicalReadMerges : Prop :=
  ∀ (s : State) (r v : Byte), s.pd &&& s.pu = 0#8 → windowExpired s = true →
    s.nextWriteAnswer = .ack → s.nextReadAnswer = .byte r →
    (∀ q : Pin, pinBit v q = levelAfterRead r s q) →
    exec .rda s = .next { s.takeWriteAnswer.takeReadAnswer with
      ts := s.now
      buf := (v &&& ~~~(s.pd ||| s.pu)) ||| s.pu
      trace := s.trace ++ [.busWrite s.cfg.devAddr s.rm .ack, .busRead s.cfg.devAddr (.byte r)]
      resp := ⟨.ok, (v &&& ~~~s.wm) ||| (s.wbuf &&& s.wm), 0, false, 0⟩ }

/-- RDA whose physical read fails reports and consumes what BUF held, and only TS moves besides. -/
def Obligations.RdaFailedReadKeepsCache : Prop :=
  ∀ s : State, s.pd &&& s.pu = 0#8 → windowExpired s = true →
    (s.nextWriteAnswer = .nack →
      exec .rda s = .next { s.takeWriteAnswer with
        ts := s.now
        buf := (s.buf &&& ~~~(s.pd ||| s.pu)) ||| s.pu
        trace := s.trace ++ [.busWrite s.cfg.devAddr s.rm .nack]
        resp := ⟨.ok, (s.buf &&& ~~~s.wm) ||| (s.wbuf &&& s.wm), 0, false, 0⟩ }) ∧
    (s.nextWriteAnswer = .ack → s.nextReadAnswer = .empty →
      exec .rda s = .next { s.takeWriteAnswer.takeReadAnswer with
        ts := s.now
        buf := (s.buf &&& ~~~(s.pd ||| s.pu)) ||| s.pu
        trace := s.trace ++ [.busWrite s.cfg.devAddr s.rm .ack, .busRead s.cfg.devAddr .empty]
        resp := ⟨.ok, (s.buf &&& ~~~s.wm) ||| (s.wbuf &&& s.wm), 0, false, 0⟩ })

/-! ### What the read cache promises (spec/41_iobuffer.md section 5) -/

/-- After a completed RD its own pin is not latched, and after a completed RDA no pin is. -/
def Obligations.ReadConsumesLatch : Prop :=
  ∀ s t : State, s.pd &&& s.pu = 0#8 → t.stuck = false →
    (∀ (p : Pin) (f : Bool), exec (.rd p f) s = .next t → latched p t = false) ∧
    (exec .rda s = .next t → ∀ q : Pin, latched q t = false)

/-- A transition away from the default is reported once: the next unforced RD of the pin inside the window
returns the default again with no bus transaction (R119). -/
def Obligations.EdgeReportedOnce : Prop :=
  ∀ (p : Pin) (f : Bool) (s t : State) (n : Nat), s.pcrInv → pinBit s.rm p = true →
    exec (.rd p f) s = .next t → t.stuck = false → t.resp.data = rdData (!pinBit s.pu p) →
    pinBit t.buf p = pinBit s.pu p ∧
    (windowExpired { t with now := n } = false → ∃ u : State,
      exec (.rd p false) { t with now := n } = .next u ∧
      u.resp.data = rdData (pinBit s.pu p) ∧ u.trace = t.trace)

/-- An output pin reads back WBUF, by RD and by RDA, whatever the bus did (R120). -/
def Obligations.OutputPinReadsBackWriteBuffer : Prop :=
  ∀ s t : State, t.stuck = false →
    (∀ (p : Pin) (f : Bool), pinBit s.wm p = true → exec (.rd p f) s = .next t →
      t.resp.data = rdData (pinBit s.wbuf p)) ∧
    (exec .rda s = .next t → ∀ q : Pin, pinBit s.wm q = true →
      pinBit t.resp.data q = pinBit s.wbuf q)

/-- Two unforced RDs whose NOW values differ by at most DEBOUNCE_MS issue at most one physical read between them,
counted by its prepare write (R121). -/
def Obligations.DebounceBoundsPhysicalReads : Prop :=
  ∀ (p q : Pin) (s t u : State) (n : Nat), n < 2 ^ s.cfg.tsW → s.now < 2 ^ s.cfg.tsW →
    (n + 2 ^ s.cfg.tsW - s.now) % 2 ^ s.cfg.tsW ≤ s.cfg.debounceMs →
    exec (.rd p false) s = .next t → exec (.rd q false) { t with now := n } = .next u →
    busWrites u.trace ≤ busWrites s.trace + 1

/-- WR then an unforced RD of the same output pin at any later NOW inside the window: the written value comes back
with no further bus transaction, even after a NACK. -/
def Obligations.WriteThenReadReturnsValue : Prop :=
  ∀ (p : Pin) (v : Bool) (s t : State) (n : Nat), pinBit s.wm p = true →
    exec (.wr p v) s = .next t → t.stuck = false → windowExpired { t with now := n } = false → ∃ u : State,
    exec (.rd p false) { t with now := n } = .next u ∧ u.resp.data = rdData v ∧ u.trace = t.trace

/-- With every pin an output, RDA after WRA returns the levels written, at whatever NOW it runs. -/
def Obligations.BulkWriteThenReadRoundTrips : Prop :=
  ∀ (levels : Byte) (s t u : State) (n : Nat), s.wm = 0xFF →
    exec (.wra levels) s = .next t → exec .rda { t with now := n } = .next u → u.stuck = false →
    u.resp.data = levels

/-- Before ACT, a pull-up pin whose BUF bit is 0 is latched: its first RD, forced or not, returns 0 with no bus
access and sets the bit, whatever the window (R192). -/
def Obligations.PullUpPinLatchedBeforeActivate : Prop :=
  ∀ (p : Pin) (lvl f : Bool) (s : State), pinBit s.buf p = false → ∃ t u : State,
    exec (.cfg p .inputPullUp lvl) s = .next t ∧ exec (.rd p f) t = .next u ∧
    u.resp.data = 0 ∧ u.trace = s.trace ∧ pinBit u.buf p = true

/-! ### ENC (spec/42_quadrature.md) -/

/-- ENC as R142 says, once its two forced reads give the levels: DETACH before, the count of the decision table
(R141, all sixteen entries and both columns), the two phase bits, REATTACH after, and the wrapped position. -/
def Obligations.EncDecodesForcedReads : Prop :=
  ∀ (a b : Pin) (rev curA curB : Bool) (s s1 s2 : State),
    readPin a true { s with trace := s.trace ++ [.detach], bridge := s.bridge.detach } = .done curA s1 →
    readPin b true s1 = .done curB s2 → ∃ t : State,
    exec (.enc a b rev) s = .next t ∧
    t = { s2 with
      phase := t.phase
      trace := s2.trace ++ [.reattach]
      bridge := s2.bridge.reattach
      resp := pollResponse s (tableDelta (pinBit s.phase a) (pinBit s.phase b) curA curB rev) } ∧
    ∀ q : Pin, pinBit t.phase q = if q = b then curB else if q = a then curA else pinBit s.phase q

/-- ENC is two forced RDs, pin A first, between DETACH and REATTACH (R146): whatever an RD of each pin at that point
does to the state and reports, ENC does and decodes, and it adds the two phase bits, the events and its own
response. -/
def Obligations.EncIsTwoForcedReads : Prop :=
  ∀ (a b : Pin) (rev : Bool) (s s1 s2 : State),
    exec (.rd a true) { s with trace := s.trace ++ [.detach], bridge := s.bridge.detach } = .next s1 →
    s1.stuck = false → exec (.rd b true) s1 = .next s2 → s2.stuck = false → ∃ t : State,
    exec (.enc a b rev) s = .next t ∧
    t = { s2 with
      phase := t.phase
      trace := s2.trace ++ [.reattach]
      bridge := s2.bridge.reattach
      resp := pollResponse s (tableDelta (pinBit s.phase a) (pinBit s.phase b)
        (pinBit s1.resp.data 0) (pinBit s2.resp.data 0) rev) } ∧
    ∀ q : Pin, pinBit t.phase q =
      if q = b then pinBit s2.resp.data 0 else if q = a then pinBit s1.resp.data 0 else pinBit s.phase q

/-- ENC of two latched pins completes with no bus transaction: both latched levels are decoded and consumed,
and the events are still emitted. -/
def Obligations.EncOfLatchedPinsUsesNoBus : Prop :=
  ∀ (a b : Pin) (rev : Bool) (s : State), a ≠ b → s.pcrInv → latched a s = true → latched b s = true →
    ∃ t : State, exec (.enc a b rev) s = .next t ∧
    t = { s with
      buf := t.buf
      phase := t.phase
      trace := s.trace ++ [.detach, .reattach]
      bridge := s.bridge.detach.reattach
      resp := pollResponse s (tableDelta (pinBit s.phase a) (pinBit s.phase b)
        (pinBit s.buf a) (pinBit s.buf b) rev) } ∧
    (∀ q : Pin, pinBit t.buf q = if q = a ∨ q = b then pinBit s.pu q else pinBit s.buf q) ∧
    (∀ q : Pin, pinBit t.phase q = if q = a ∨ q = b then pinBit s.buf q else pinBit s.phase q)

/-- ENC completes whenever the bus returns: with two settled answers for each kind of transaction, none of them
`never`, it answers a next state that is not stuck, with STATUS OK, the counts of the decision table for some
sampled levels, and the phase bits at those levels. -/
def Obligations.EncCompletesWhenBusReturns : Prop :=
  ∀ (a b : Pin) (rev : Bool) (s : State) (w1 w2 : WriteAnswer) (r1 r2 : ReadAnswer)
    (ws : List WriteAnswer) (rs : List ReadAnswer),
    s.stuck = false → s.writeAnswers = w1 :: w2 :: ws → s.readAnswers = r1 :: r2 :: rs →
    w1 ≠ .never → w2 ≠ .never → r1 ≠ .never → r2 ≠ .never → ∃ (curA curB : Bool) (t : State),
    exec (.enc a b rev) s = .next t ∧ t.stuck = false ∧
    t.resp = pollResponse s (tableDelta (pinBit s.phase a) (pinBit s.phase b) curA curB rev) ∧
    ∀ q : Pin, pinBit t.phase q = if q = b then curB else if q = a then curA else pinBit s.phase q

/-- REV negates DELTA, and neither CHANGED nor the phase depends on it (R144). -/
def Obligations.ReversalNegatesDelta : Prop :=
  ∀ (a b : Pin) (s t u : State),
    exec (.enc a b false) s = .next t → exec (.enc a b true) s = .next u → t.stuck = false →
    u.resp.delta = -t.resp.delta ∧ u.resp.changed = t.resp.changed ∧ u.phase = t.phase

/-- POS_OUT is POS_IN plus DELTA modulo 2^POS_W, the change is -1, 0 or +1, and POS_OUT equals POS_IN iff CHANGED
is 0 (R145), at every width a position can have. -/
def Obligations.PositionFollowsDelta : Prop :=
  ∀ (a b : Pin) (rev : Bool) (s t : State), 0 < s.cfg.posW → s.posIn < 2 ^ s.cfg.posW →
    exec (.enc a b rev) s = .next t → t.stuck = false →
    (t.resp.posOut : Int) = (s.posIn + t.resp.delta.toInt) % 2 ^ s.cfg.posW ∧
    (t.resp.delta.toInt = -1 ∨ t.resp.delta.toInt = 0 ∨ t.resp.delta.toInt = 1) ∧
    (t.resp.posOut = s.posIn ↔ t.resp.changed = false)

/-- One clockwise cycle of four single steps counts -2 by the model's table, its reverse +2, each with two of
four transitions changed (R148). -/
def Obligations.FullCycleCountsTwo : Prop :=
  let count := fun (pa pb ca cb : Bool) => (quadratureDelta (combinedPhase pa pb ca cb) false).toInt
  count true true true false + count true false false false + count false false false true +
    count false true true true = -2 ∧
  count true true false true + count false true false false + count false false true false +
    count true false true true = 2 ∧
  count true false false false = 0 ∧ count false true true true = 0 ∧
  count false true false false = 0 ∧ count true false true true = 0

/-! ### Statuses, events and the bridge (spec/60_exceptions.md) -/

/-- The codes of R160, none of them 4 to 7. -/
def Obligations.StatusCodes : Prop :=
  Status.ok.code = 0 ∧ Status.invalidConfiguration.code = 1 ∧ Status.deviceUnreachable.code = 2 ∧
  Status.illegalCommand.code = 3 ∧ ∀ st : Status, st.code.toNat < 4

/-- A completed command raises exactly the status its cause gives: INVALID_CONFIGURATION only CFG with the
direction 0b11, DEVICE_UNREACHABLE only a refused write of ACT, WR or WRA, and never ILLEGAL_COMMAND. -/
def Obligations.StatusFollowsCause : Prop :=
  ∀ (i : Instr) (s t : State), exec i s = .next t → t.stuck = false →
    t.resp.status =
      match i with
      | .cfg _ dir _ => if dir = .unrecognized then .invalidConfiguration else .ok
      | .act => if s.wm ||| s.rm ≠ 0#8 ∧ s.nextWriteAnswer = .nack then .deviceUnreachable else .ok
      | .wr _ _ => if s.nextWriteAnswer = .nack then .deviceUnreachable else .ok
      | .wra _ => if s.nextWriteAnswer = .nack then .deviceUnreachable else .ok
      | .rd _ _ => .ok
      | .rda => .ok
      | .enc _ _ _ => .ok

/-- The response fields of a completed command (R38): DATA is one bit for RD, eight for RDA and 0 for every other
command; DELTA, CHANGED and POS_OUT are 0 for every command but ENC, and for ENC CHANGED says whether DELTA is 0. -/
def Obligations.ResponseFieldsPerCommand : Prop :=
  ∀ (i : Instr) (s t : State), exec i s = .next t → t.stuck = false →
    match i with
    | .enc _ _ _ => t.resp.data = 0 ∧ (t.resp.changed = true ↔ t.resp.delta ≠ 0)
    | .rd _ _ => t.resp.data.toNat ≤ 1 ∧ t.resp.delta = 0 ∧ t.resp.changed = false ∧ t.resp.posOut = 0
    | .rda => t.resp.delta = 0 ∧ t.resp.changed = false ∧ t.resp.posOut = 0
    | .cfg _ _ _ => t.resp = ⟨t.resp.status, 0, 0, false, 0⟩
    | .act => t.resp = ⟨t.resp.status, 0, 0, false, 0⟩
    | .wr _ _ => t.resp = ⟨t.resp.status, 0, 0, false, 0⟩
    | .wra _ => t.resp = ⟨t.resp.status, 0, 0, false, 0⟩

/-- A NACK of the one BusWrite of ACT, WR or WRA is reported as DEVICE_UNREACHABLE, nothing is retried, ACT has
changed no register, and WR and WRA have already written WBUF (R163). -/
def Obligations.NackReportsDeviceUnreachable : Prop :=
  ∀ s : State, s.nextWriteAnswer = .nack →
    (s.wm ||| s.rm ≠ 0#8 → ∃ t : State, exec .act s = .next t ∧ t.resp.status = .deviceUnreachable ∧
      busWrites t.trace = busWrites s.trace + 1 ∧
      t.wm = s.wm ∧ t.wmu = s.wmu ∧ t.rm = s.rm ∧ t.pd = s.pd ∧ t.pu = s.pu ∧
      t.buf = s.buf ∧ t.wbuf = s.wbuf ∧ t.ts = s.ts ∧ t.phase = s.phase) ∧
    (∀ (p : Pin) (v : Bool), ∃ t : State, exec (.wr p v) s = .next t ∧
      t.resp.status = .deviceUnreachable ∧ busWrites t.trace = busWrites s.trace + 1 ∧
      ∀ q : Pin, pinBit t.wbuf q = if q = p then v else pinBit s.wbuf q) ∧
    (∀ levels : Byte, ∃ t : State, exec (.wra levels) s = .next t ∧
      t.resp.status = .deviceUnreachable ∧ busWrites t.trace = busWrites s.trace + 1 ∧
      t.wbuf = levels)

/-- A completed ENC emits DETACH, then only bus transactions, then REATTACH, and each event reaches the bridge; no
other command emits an event (R170). -/
def Obligations.OnlyEncEmitsBracketedEvents : Prop :=
  ∀ (i : Instr) (s t : State), exec i s = .next t → t.stuck = false → ∃ mid : List PortEvent,
    mid.all PortEvent.isBus = true ∧
    match i with
    | .enc _ _ _ => t.trace = s.trace ++ [.detach] ++ mid ++ [.reattach] ∧
        t.bridge = s.bridge.detach.reattach
    | .cfg _ _ _ => t.trace = s.trace ++ mid ∧ t.bridge = s.bridge
    | .act => t.trace = s.trace ++ mid ∧ t.bridge = s.bridge
    | .rd _ _ => t.trace = s.trace ++ mid ∧ t.bridge = s.bridge
    | .wr _ _ => t.trace = s.trace ++ mid ∧ t.bridge = s.bridge
    | .wra _ => t.trace = s.trace ++ mid ∧ t.bridge = s.bridge
    | .rda => t.trace = s.trace ++ mid ∧ t.bridge = s.bridge

/-- The bus transactions of each command: none of CFG, none or one write of ACT, exactly one write of WR and WRA,
at most one physical read of RD and RDA and at most two of ENC, and never more reads than writes (R54). -/
def Obligations.BusTransactionsPerCommand : Prop :=
  ∀ (i : Instr) (s t : State), exec i s = .next t → ∃ new : List PortEvent,
    t.trace = s.trace ++ new ∧
    match i with
    | .cfg _ _ _ => new = []
    | .act => busReads new = 0 ∧ busWrites new = if s.wm ||| s.rm = 0#8 then 0 else 1
    | .wr _ _ => busReads new = 0 ∧ busWrites new = 1
    | .wra _ => busReads new = 0 ∧ busWrites new = 1
    | .rd _ _ => busReads new ≤ busWrites new ∧ busWrites new ≤ 1
    | .rda => busReads new ≤ busWrites new ∧ busWrites new ≤ 1
    | .enc _ _ _ => busReads new ≤ busWrites new ∧ busWrites new ≤ 2

/-- The host's calls of the bridge do to it what R171 says and touch nothing of the block; an attach that names no
edge kind is for a falling edge. -/
def Obligations.BridgeCallsFollowContract : Prop :=
  ∀ (s : State) (rest : List HostAction) (a : Attachment),
    (s.host = .attach a.line a.callback (some a.edge) :: rest →
      step s = .next { s with host := rest, bridge := ⟨true, some a, s.bridge.calls ++ [.register a]⟩ }) ∧
    (s.host = .attach a.line a.callback none :: rest → a.edge = .fallingEdge →
      step s = .next { s with host := rest, bridge := ⟨true, some a, s.bridge.calls ++ [.register a]⟩ }) ∧
    (s.host = .detach :: rest → s.bridge.attached = true → s.bridge.last = some a →
      step s = .next { s with
        host := rest, bridge := ⟨false, some a, s.bridge.calls ++ [.unregister a.line]⟩ }) ∧
    (s.host = .detach :: rest → s.bridge.attached = false → step s = .next { s with host := rest }) ∧
    (s.host = .reattach :: rest → s.bridge.last = some a →
      step s = .next { s with host := rest, bridge := ⟨true, some a, s.bridge.calls ++ [.register a]⟩ }) ∧
    (s.host = .reattach :: rest → s.bridge.last = none → step s = .next { s with host := rest })

/-- After a completed ENC the callback is attached iff one was ever attached, even if the host had detached it
before the poll (R171). -/
def Obligations.EncReattachesUnconditionally : Prop :=
  ∀ (a b : Pin) (rev : Bool) (s t : State), exec (.enc a b rev) s = .next t → t.stuck = false →
    t.bridge.last = s.bridge.last ∧ t.bridge.attached = s.bridge.last.isSome

/-! ### A bus that never returns (spec/20_memory.md R57, spec/70_reset_and_hazards.md R207) -/

/-- A command whose first BusWrite, or the BusRead after it, never returns leaves the block stuck: no response, and
no register but TS of a physical read or WBUF of a write was touched. -/
def Obligations.BusThatNeverReturnsSticks : Prop :=
  ∀ (i : Instr) (s : State),
    (match i with
      | .cfg _ _ _ => False
      | .act => s.nextWriteAnswer = .never ∧ s.wm ||| s.rm ≠ 0
      | .rd p f => firstReadNeverReturns s ∧ latched p s = false ∧ (f = true ∨ windowExpired s = true)
      | .wr _ _ => s.nextWriteAnswer = .never
      | .wra _ => s.nextWriteAnswer = .never
      | .rda => firstReadNeverReturns s ∧ windowExpired s = true
      | .enc a _ _ => firstReadNeverReturns s ∧ latched a s = false) → ∃ t : State,
    exec i s = .next t ∧ t.stuck = true ∧ t.resp = s.resp ∧ t.buf = s.buf ∧ t.phase = s.phase ∧
    t.wm = s.wm ∧ t.wmu = s.wmu ∧ t.rm = s.rm ∧ t.pd = s.pd ∧ t.pu = s.pu ∧
    ∀ (w : CmdWord) (pos adv : Nat) (rest : List HostAction),
      step { t with host := .command w pos adv :: rest } = .fault .stuckOnBus

/-- The exact state RD, RDA and ENC leave when the one physical read they issue first never returns, in its BusWrite
or in its BusRead: TS is NOW, nothing is merged, reported or answered, and ENC has emitted DETACH alone. -/
def Obligations.ReadThatNeverReturnsSticks : Prop :=
  ∀ s : State,
    let w : State := { s.takeWriteAnswer with
      ts := s.now
      trace := s.trace ++ [.busWrite s.cfg.devAddr s.rm .never]
      stuck := true }
    let r : State := { s.takeWriteAnswer.takeReadAnswer with
      ts := s.now
      trace := s.trace ++ [.busWrite s.cfg.devAddr s.rm .ack, .busRead s.cfg.devAddr .never]
      stuck := true }
    let sticksAs : Instr → State → State → Prop := fun i w r =>
      (s.nextWriteAnswer = .never → exec i s = .next w) ∧
      (s.nextWriteAnswer = .ack → s.nextReadAnswer = .never → exec i s = .next r)
    (∀ (p : Pin) (f : Bool), latched p s = false → (f = true ∨ windowExpired s = true) →
      sticksAs (.rd p f) w r) ∧
    (windowExpired s = true → sticksAs .rda w r) ∧
    (∀ (a b : Pin) (rev : Bool), latched a s = false →
      sticksAs (.enc a b rev)
        { w with
          trace := s.trace ++ [.detach, .busWrite s.cfg.devAddr s.rm .never]
          bridge := s.bridge.detach }
        { r with
          trace := s.trace ++
            [.detach, .busWrite s.cfg.devAddr s.rm .ack, .busRead s.cfg.devAddr .never]
          bridge := s.bridge.detach })

/-- ENC stuck in either of its reads stays where a forced RD of that pin would stay: after the DETACH, with what pin
A's read already did (a latch consumed, a byte merged) kept, and with no phase, no REATTACH and no response. -/
def Obligations.EncSticksInEitherRead : Prop :=
  ∀ (a b : Pin) (rev : Bool) (s s1 : State), s.stuck = false →
    exec (.rd a true) { s with trace := s.trace ++ [.detach], bridge := s.bridge.detach } = .next s1 →
    (s1.stuck = true → exec (.enc a b rev) s = .next s1 ∧ s1.resp = s.resp ∧ s1.phase = s.phase) ∧
    ∀ s2 : State, s1.stuck = false → exec (.rd b true) s1 = .next s2 → s2.stuck = true →
      exec (.enc a b rev) s = .next { s2 with resp := s.resp } ∧ s2.phase = s.phase ∧ s2.buf = s1.buf ∧
      s2.bridge = s.bridge.detach

/-- Once stuck, the block accepts no command and none of its state ever changes again. -/
def Obligations.StuckBlockNeverChanges : Prop :=
  ∀ s t : State, s.stuck = true → step s = .next t →
    t = { s with host := t.host, bridge := t.bridge } ∧
    ∀ (w : CmdWord) (pos adv : Nat) (rest : List HostAction), s.host ≠ .command w pos adv :: rest

/-! ### Rules of the whole machine -/

/-- With no action of the host to come the block is idle and keeps all state (R176).  That an idle block is a step of
the machine is the model's choice (notes/assumptions/5.md). -/
def Obligations.IdleStepKeepsState : Prop := ∀ s : State, s.host = [] → step s = .next s

/-- The invariant holds at reset. -/
def Obligations.ResetMeetsStateInv : Prop := State.reset.Inv

/-- Every step keeps the invariant: the PCR masks stay legal (R26), every value fits its width, responses stay
legal (R83), every bus transaction goes to DEV_ADDR with each BusRead after an acknowledged write, and the bridge
stays legal. -/
def Obligations.StepKeepsStateInv : Prop := ∀ s t : State, s.Inv → step s = .next t → t.Inv

/-- No step changes the parameters: they are fixed for the block's life. -/
def Obligations.StepKeepsParameters : Prop := ∀ s t : State, step s = .next t → t.cfg = s.cfg

/-- The five PCR registers are written only by CFG (R27). -/
def Obligations.OnlyCfgWritesMasks : Prop :=
  ∀ (i : Instr) (s t : State), exec i s = .next t → i.mnemonic ≠ "CFG" →
    t.wm = s.wm ∧ t.wmu = s.wmu ∧ t.rm = s.rm ∧ t.pd = s.pd ∧ t.pu = s.pu

/-- PHASE is written only by ENC, and by it only in the bits of its two pins (R35, R143). -/
def Obligations.OnlyEncWritesPhase : Prop :=
  ∀ (i : Instr) (s t : State), exec i s = .next t →
    match i with
    | .enc a b _ => ∀ q : Pin, q ≠ a → q ≠ b → pinBit t.phase q = pinBit s.phase q
    | .cfg _ _ _ => t.phase = s.phase
    | .act => t.phase = s.phase
    | .rd _ _ => t.phase = s.phase
    | .wr _ _ => t.phase = s.phase
    | .wra _ => t.phase = s.phase
    | .rda => t.phase = s.phase

/-- WBUF is written only by ACT, WR and WRA, and TS only by ACT and the reads, always with NOW (R29, R30). -/
def Obligations.WritersOfWbufAndTimestamp : Prop :=
  ∀ (i : Instr) (s t : State), exec i s = .next t →
    match i with
    | .cfg _ _ _ => t.wbuf = s.wbuf ∧ t.ts = s.ts
    | .act => t.ts = s.ts ∨ t.ts = s.now
    | .wr _ _ => t.ts = s.ts
    | .wra _ => t.ts = s.ts
    | .rd _ _ => t.wbuf = s.wbuf ∧ (t.trace = s.trace ∧ t.ts = s.ts ∨ t.trace ≠ s.trace ∧ t.ts = s.now)
    | .rda => t.wbuf = s.wbuf ∧ (t.trace = s.trace ∧ t.ts = s.ts ∨ t.trace ≠ s.trace ∧ t.ts = s.now)
    | .enc _ _ _ => t.wbuf = s.wbuf ∧ (t.ts = s.ts ∨ t.ts = s.now)

/-- The BUF bits of output and unconfigured pins change at ACT alone (R28, R31). -/
def Obligations.OnlyActWritesNonInputBufBits : Prop :=
  ∀ (i : Instr) (s t : State), s.pcrInv → i ≠ .act → exec i s = .next t →
    ∀ q : Pin, pinBit s.rm q = false → pinBit t.buf q = pinBit s.buf q

/-- POS_IN is read by ENC alone: any other command does the same whatever stands on that port (R78). -/
def Obligations.PosInIgnoredByOtherCommands : Prop :=
  ∀ (i : Instr) (s t : State) (x : Nat), i.mnemonic ≠ "ENC" → exec i s = .next t →
    exec i { s with posIn := x } = .next { t with posIn := x }

/-- Every command accepted by the block leaves a next state: exec never faults and never refuses. -/
def Obligations.ExecAlwaysAnswersNext : Prop := ∀ (i : Instr) (s : State), ∃ t : State, exec i s = .next t
end

