-- ==== Sys2Proof/Laws/Bits.lean ====
section
/-! SUPPORT. One pin's bit of a mask: what `pinBit` reads after each operation on masks (spec/00_scope.md R8, R9),
and that a byte is its eight pin bits. -/

namespace Sys2Proof.Machine

open Sys2Proof

@[simp] theorem pinBit_and (a b : Byte) (p : Pin) : pinBit (a &&& b) p = (pinBit a p && pinBit b p) := by
  simp [pinBit]

@[simp] theorem pinBit_or (a b : Byte) (p : Pin) : pinBit (a ||| b) p = (pinBit a p || pinBit b p) := by
  simp [pinBit]

@[simp] theorem pinBit_not (a : Byte) (p : Pin) : pinBit (~~~a) p = !pinBit a p := by
  simp [pinBit, p.isLt]

@[simp] theorem pinBit_zero (p : Pin) : pinBit 0#8 p = false := by simp [pinBit]

@[simp] theorem pinBit_pinMask (p q : Pin) : pinBit (pinMask p) q = decide (q = p) := by
  revert p q; decide

@[simp] theorem pinBit_setPinBit (r : Byte) (p q : Pin) (v : Bool) :
    pinBit (setPinBit r p v) q = if q = p then v else pinBit r q := by
  unfold setPinBit
  by_cases h : q = p <;> cases v <;> simp [h]

/-- A byte is its eight pin bits (R8). -/
theorem byte_ext {a b : Byte} (h : ∀ p : Pin, pinBit a p = pinBit b p) : a = b := by
  apply BitVec.eq_of_getLsbD_eq
  intro i hi
  exact h ⟨i, hi⟩

theorem byte_eq_zero_iff (a : Byte) : a = 0#8 ↔ ∀ p : Pin, pinBit a p = false :=
  ⟨fun h p => by rw [h]; exact pinBit_zero p, fun h => byte_ext fun p => by rw [h p]; simp⟩

/-- Every pin is one of the eight (R13). -/
theorem mem_allPins (p : Pin) : p ∈ allPins := by revert p; decide

end Sys2Proof.Machine
end

