-- ==== Sys2Proof/Laws/State.lean ====
section
/-! SUPPORT. One lemma for each field of State and each named update of Machine/Ops.lean, true by `rfl`: no later
proof unfolds a record update. -/

namespace Sys2Proof.Machine

open Sys2Proof

/-! ### State.setMasks -/

section
variable (s : State) (a b c d e : Byte)

@[simp] theorem State.setMasks_cfg : (s.setMasks a b c d e).cfg = s.cfg := rfl
@[simp] theorem State.setMasks_wm : (s.setMasks a b c d e).wm = a := rfl
@[simp] theorem State.setMasks_wmu : (s.setMasks a b c d e).wmu = b := rfl
@[simp] theorem State.setMasks_rm : (s.setMasks a b c d e).rm = c := rfl
@[simp] theorem State.setMasks_pd : (s.setMasks a b c d e).pd = d := rfl
@[simp] theorem State.setMasks_pu : (s.setMasks a b c d e).pu = e := rfl
@[simp] theorem State.setMasks_buf : (s.setMasks a b c d e).buf = s.buf := rfl
@[simp] theorem State.setMasks_wbuf : (s.setMasks a b c d e).wbuf = s.wbuf := rfl
@[simp] theorem State.setMasks_ts : (s.setMasks a b c d e).ts = s.ts := rfl
@[simp] theorem State.setMasks_phase : (s.setMasks a b c d e).phase = s.phase := rfl
@[simp] theorem State.setMasks_resp : (s.setMasks a b c d e).resp = s.resp := rfl
@[simp] theorem State.setMasks_stuck : (s.setMasks a b c d e).stuck = s.stuck := rfl
@[simp] theorem State.setMasks_now : (s.setMasks a b c d e).now = s.now := rfl
@[simp] theorem State.setMasks_posIn : (s.setMasks a b c d e).posIn = s.posIn := rfl
@[simp] theorem State.setMasks_host : (s.setMasks a b c d e).host = s.host := rfl
@[simp] theorem State.setMasks_writeAnswers : (s.setMasks a b c d e).writeAnswers = s.writeAnswers := rfl
@[simp] theorem State.setMasks_readAnswers : (s.setMasks a b c d e).readAnswers = s.readAnswers := rfl
@[simp] theorem State.setMasks_freeWrites : (s.setMasks a b c d e).freeWrites = s.freeWrites := rfl
@[simp] theorem State.setMasks_freeReads : (s.setMasks a b c d e).freeReads = s.freeReads := rfl
@[simp] theorem State.setMasks_trace : (s.setMasks a b c d e).trace = s.trace := rfl
@[simp] theorem State.setMasks_bridge : (s.setMasks a b c d e).bridge = s.bridge := rfl

end

/-! ### State.setBuf -/

section
variable (s : State) (b : Byte)

@[simp] theorem State.setBuf_cfg : (s.setBuf b).cfg = s.cfg := rfl
@[simp] theorem State.setBuf_wm : (s.setBuf b).wm = s.wm := rfl
@[simp] theorem State.setBuf_wmu : (s.setBuf b).wmu = s.wmu := rfl
@[simp] theorem State.setBuf_rm : (s.setBuf b).rm = s.rm := rfl
@[simp] theorem State.setBuf_pd : (s.setBuf b).pd = s.pd := rfl
@[simp] theorem State.setBuf_pu : (s.setBuf b).pu = s.pu := rfl
@[simp] theorem State.setBuf_buf : (s.setBuf b).buf = b := rfl
@[simp] theorem State.setBuf_wbuf : (s.setBuf b).wbuf = s.wbuf := rfl
@[simp] theorem State.setBuf_ts : (s.setBuf b).ts = s.ts := rfl
@[simp] theorem State.setBuf_phase : (s.setBuf b).phase = s.phase := rfl
@[simp] theorem State.setBuf_resp : (s.setBuf b).resp = s.resp := rfl
@[simp] theorem State.setBuf_stuck : (s.setBuf b).stuck = s.stuck := rfl
@[simp] theorem State.setBuf_now : (s.setBuf b).now = s.now := rfl
@[simp] theorem State.setBuf_posIn : (s.setBuf b).posIn = s.posIn := rfl
@[simp] theorem State.setBuf_host : (s.setBuf b).host = s.host := rfl
@[simp] theorem State.setBuf_writeAnswers : (s.setBuf b).writeAnswers = s.writeAnswers := rfl
@[simp] theorem State.setBuf_readAnswers : (s.setBuf b).readAnswers = s.readAnswers := rfl
@[simp] theorem State.setBuf_freeWrites : (s.setBuf b).freeWrites = s.freeWrites := rfl
@[simp] theorem State.setBuf_freeReads : (s.setBuf b).freeReads = s.freeReads := rfl
@[simp] theorem State.setBuf_trace : (s.setBuf b).trace = s.trace := rfl
@[simp] theorem State.setBuf_bridge : (s.setBuf b).bridge = s.bridge := rfl

end

/-! ### State.setWbuf -/

section
variable (s : State) (b : Byte)

@[simp] theorem State.setWbuf_cfg : (s.setWbuf b).cfg = s.cfg := rfl
@[simp] theorem State.setWbuf_wm : (s.setWbuf b).wm = s.wm := rfl
@[simp] theorem State.setWbuf_wmu : (s.setWbuf b).wmu = s.wmu := rfl
@[simp] theorem State.setWbuf_rm : (s.setWbuf b).rm = s.rm := rfl
@[simp] theorem State.setWbuf_pd : (s.setWbuf b).pd = s.pd := rfl
@[simp] theorem State.setWbuf_pu : (s.setWbuf b).pu = s.pu := rfl
@[simp] theorem State.setWbuf_buf : (s.setWbuf b).buf = s.buf := rfl
@[simp] theorem State.setWbuf_wbuf : (s.setWbuf b).wbuf = b := rfl
@[simp] theorem State.setWbuf_ts : (s.setWbuf b).ts = s.ts := rfl
@[simp] theorem State.setWbuf_phase : (s.setWbuf b).phase = s.phase := rfl
@[simp] theorem State.setWbuf_resp : (s.setWbuf b).resp = s.resp := rfl
@[simp] theorem State.setWbuf_stuck : (s.setWbuf b).stuck = s.stuck := rfl
@[simp] theorem State.setWbuf_now : (s.setWbuf b).now = s.now := rfl
@[simp] theorem State.setWbuf_posIn : (s.setWbuf b).posIn = s.posIn := rfl
@[simp] theorem State.setWbuf_host : (s.setWbuf b).host = s.host := rfl
@[simp] theorem State.setWbuf_writeAnswers : (s.setWbuf b).writeAnswers = s.writeAnswers := rfl
@[simp] theorem State.setWbuf_readAnswers : (s.setWbuf b).readAnswers = s.readAnswers := rfl
@[simp] theorem State.setWbuf_freeWrites : (s.setWbuf b).freeWrites = s.freeWrites := rfl
@[simp] theorem State.setWbuf_freeReads : (s.setWbuf b).freeReads = s.freeReads := rfl
@[simp] theorem State.setWbuf_trace : (s.setWbuf b).trace = s.trace := rfl
@[simp] theorem State.setWbuf_bridge : (s.setWbuf b).bridge = s.bridge := rfl

end

/-! ### State.setTs -/

section
variable (s : State) (n : Nat)

@[simp] theorem State.setTs_cfg : (s.setTs n).cfg = s.cfg := rfl
@[simp] theorem State.setTs_wm : (s.setTs n).wm = s.wm := rfl
@[simp] theorem State.setTs_wmu : (s.setTs n).wmu = s.wmu := rfl
@[simp] theorem State.setTs_rm : (s.setTs n).rm = s.rm := rfl
@[simp] theorem State.setTs_pd : (s.setTs n).pd = s.pd := rfl
@[simp] theorem State.setTs_pu : (s.setTs n).pu = s.pu := rfl
@[simp] theorem State.setTs_buf : (s.setTs n).buf = s.buf := rfl
@[simp] theorem State.setTs_wbuf : (s.setTs n).wbuf = s.wbuf := rfl
@[simp] theorem State.setTs_ts : (s.setTs n).ts = n := rfl
@[simp] theorem State.setTs_phase : (s.setTs n).phase = s.phase := rfl
@[simp] theorem State.setTs_resp : (s.setTs n).resp = s.resp := rfl
@[simp] theorem State.setTs_stuck : (s.setTs n).stuck = s.stuck := rfl
@[simp] theorem State.setTs_now : (s.setTs n).now = s.now := rfl
@[simp] theorem State.setTs_posIn : (s.setTs n).posIn = s.posIn := rfl
@[simp] theorem State.setTs_host : (s.setTs n).host = s.host := rfl
@[simp] theorem State.setTs_writeAnswers : (s.setTs n).writeAnswers = s.writeAnswers := rfl
@[simp] theorem State.setTs_readAnswers : (s.setTs n).readAnswers = s.readAnswers := rfl
@[simp] theorem State.setTs_freeWrites : (s.setTs n).freeWrites = s.freeWrites := rfl
@[simp] theorem State.setTs_freeReads : (s.setTs n).freeReads = s.freeReads := rfl
@[simp] theorem State.setTs_trace : (s.setTs n).trace = s.trace := rfl
@[simp] theorem State.setTs_bridge : (s.setTs n).bridge = s.bridge := rfl

end

/-! ### State.setPhase -/

section
variable (s : State) (b : Byte)

@[simp] theorem State.setPhase_cfg : (s.setPhase b).cfg = s.cfg := rfl
@[simp] theorem State.setPhase_wm : (s.setPhase b).wm = s.wm := rfl
@[simp] theorem State.setPhase_wmu : (s.setPhase b).wmu = s.wmu := rfl
@[simp] theorem State.setPhase_rm : (s.setPhase b).rm = s.rm := rfl
@[simp] theorem State.setPhase_pd : (s.setPhase b).pd = s.pd := rfl
@[simp] theorem State.setPhase_pu : (s.setPhase b).pu = s.pu := rfl
@[simp] theorem State.setPhase_buf : (s.setPhase b).buf = s.buf := rfl
@[simp] theorem State.setPhase_wbuf : (s.setPhase b).wbuf = s.wbuf := rfl
@[simp] theorem State.setPhase_ts : (s.setPhase b).ts = s.ts := rfl
@[simp] theorem State.setPhase_phase : (s.setPhase b).phase = b := rfl
@[simp] theorem State.setPhase_resp : (s.setPhase b).resp = s.resp := rfl
@[simp] theorem State.setPhase_stuck : (s.setPhase b).stuck = s.stuck := rfl
@[simp] theorem State.setPhase_now : (s.setPhase b).now = s.now := rfl
@[simp] theorem State.setPhase_posIn : (s.setPhase b).posIn = s.posIn := rfl
@[simp] theorem State.setPhase_host : (s.setPhase b).host = s.host := rfl
@[simp] theorem State.setPhase_writeAnswers : (s.setPhase b).writeAnswers = s.writeAnswers := rfl
@[simp] theorem State.setPhase_readAnswers : (s.setPhase b).readAnswers = s.readAnswers := rfl
@[simp] theorem State.setPhase_freeWrites : (s.setPhase b).freeWrites = s.freeWrites := rfl
@[simp] theorem State.setPhase_freeReads : (s.setPhase b).freeReads = s.freeReads := rfl
@[simp] theorem State.setPhase_trace : (s.setPhase b).trace = s.trace := rfl
@[simp] theorem State.setPhase_bridge : (s.setPhase b).bridge = s.bridge := rfl

end

/-! ### State.setResp -/

section
variable (s : State) (r : Response)

@[simp] theorem State.setResp_cfg : (s.setResp r).cfg = s.cfg := rfl
@[simp] theorem State.setResp_wm : (s.setResp r).wm = s.wm := rfl
@[simp] theorem State.setResp_wmu : (s.setResp r).wmu = s.wmu := rfl
@[simp] theorem State.setResp_rm : (s.setResp r).rm = s.rm := rfl
@[simp] theorem State.setResp_pd : (s.setResp r).pd = s.pd := rfl
@[simp] theorem State.setResp_pu : (s.setResp r).pu = s.pu := rfl
@[simp] theorem State.setResp_buf : (s.setResp r).buf = s.buf := rfl
@[simp] theorem State.setResp_wbuf : (s.setResp r).wbuf = s.wbuf := rfl
@[simp] theorem State.setResp_ts : (s.setResp r).ts = s.ts := rfl
@[simp] theorem State.setResp_phase : (s.setResp r).phase = s.phase := rfl
@[simp] theorem State.setResp_resp : (s.setResp r).resp = r := rfl
@[simp] theorem State.setResp_stuck : (s.setResp r).stuck = s.stuck := rfl
@[simp] theorem State.setResp_now : (s.setResp r).now = s.now := rfl
@[simp] theorem State.setResp_posIn : (s.setResp r).posIn = s.posIn := rfl
@[simp] theorem State.setResp_host : (s.setResp r).host = s.host := rfl
@[simp] theorem State.setResp_writeAnswers : (s.setResp r).writeAnswers = s.writeAnswers := rfl
@[simp] theorem State.setResp_readAnswers : (s.setResp r).readAnswers = s.readAnswers := rfl
@[simp] theorem State.setResp_freeWrites : (s.setResp r).freeWrites = s.freeWrites := rfl
@[simp] theorem State.setResp_freeReads : (s.setResp r).freeReads = s.freeReads := rfl
@[simp] theorem State.setResp_trace : (s.setResp r).trace = s.trace := rfl
@[simp] theorem State.setResp_bridge : (s.setResp r).bridge = s.bridge := rfl

end

/-! ### State.setStuck -/

section
variable (s : State)

@[simp] theorem State.setStuck_cfg : (s.setStuck).cfg = s.cfg := rfl
@[simp] theorem State.setStuck_wm : (s.setStuck).wm = s.wm := rfl
@[simp] theorem State.setStuck_wmu : (s.setStuck).wmu = s.wmu := rfl
@[simp] theorem State.setStuck_rm : (s.setStuck).rm = s.rm := rfl
@[simp] theorem State.setStuck_pd : (s.setStuck).pd = s.pd := rfl
@[simp] theorem State.setStuck_pu : (s.setStuck).pu = s.pu := rfl
@[simp] theorem State.setStuck_buf : (s.setStuck).buf = s.buf := rfl
@[simp] theorem State.setStuck_wbuf : (s.setStuck).wbuf = s.wbuf := rfl
@[simp] theorem State.setStuck_ts : (s.setStuck).ts = s.ts := rfl
@[simp] theorem State.setStuck_phase : (s.setStuck).phase = s.phase := rfl
@[simp] theorem State.setStuck_resp : (s.setStuck).resp = s.resp := rfl
@[simp] theorem State.setStuck_stuck : (s.setStuck).stuck = true := rfl
@[simp] theorem State.setStuck_now : (s.setStuck).now = s.now := rfl
@[simp] theorem State.setStuck_posIn : (s.setStuck).posIn = s.posIn := rfl
@[simp] theorem State.setStuck_host : (s.setStuck).host = s.host := rfl
@[simp] theorem State.setStuck_writeAnswers : (s.setStuck).writeAnswers = s.writeAnswers := rfl
@[simp] theorem State.setStuck_readAnswers : (s.setStuck).readAnswers = s.readAnswers := rfl
@[simp] theorem State.setStuck_freeWrites : (s.setStuck).freeWrites = s.freeWrites := rfl
@[simp] theorem State.setStuck_freeReads : (s.setStuck).freeReads = s.freeReads := rfl
@[simp] theorem State.setStuck_trace : (s.setStuck).trace = s.trace := rfl
@[simp] theorem State.setStuck_bridge : (s.setStuck).bridge = s.bridge := rfl

end

/-! ### State.logEvent -/

section
variable (s : State) (e : PortEvent)

@[simp] theorem State.logEvent_cfg : (s.logEvent e).cfg = s.cfg := rfl
@[simp] theorem State.logEvent_wm : (s.logEvent e).wm = s.wm := rfl
@[simp] theorem State.logEvent_wmu : (s.logEvent e).wmu = s.wmu := rfl
@[simp] theorem State.logEvent_rm : (s.logEvent e).rm = s.rm := rfl
@[simp] theorem State.logEvent_pd : (s.logEvent e).pd = s.pd := rfl
@[simp] theorem State.logEvent_pu : (s.logEvent e).pu = s.pu := rfl
@[simp] theorem State.logEvent_buf : (s.logEvent e).buf = s.buf := rfl
@[simp] theorem State.logEvent_wbuf : (s.logEvent e).wbuf = s.wbuf := rfl
@[simp] theorem State.logEvent_ts : (s.logEvent e).ts = s.ts := rfl
@[simp] theorem State.logEvent_phase : (s.logEvent e).phase = s.phase := rfl
@[simp] theorem State.logEvent_resp : (s.logEvent e).resp = s.resp := rfl
@[simp] theorem State.logEvent_stuck : (s.logEvent e).stuck = s.stuck := rfl
@[simp] theorem State.logEvent_now : (s.logEvent e).now = s.now := rfl
@[simp] theorem State.logEvent_posIn : (s.logEvent e).posIn = s.posIn := rfl
@[simp] theorem State.logEvent_host : (s.logEvent e).host = s.host := rfl
@[simp] theorem State.logEvent_writeAnswers : (s.logEvent e).writeAnswers = s.writeAnswers := rfl
@[simp] theorem State.logEvent_readAnswers : (s.logEvent e).readAnswers = s.readAnswers := rfl
@[simp] theorem State.logEvent_freeWrites : (s.logEvent e).freeWrites = s.freeWrites := rfl
@[simp] theorem State.logEvent_freeReads : (s.logEvent e).freeReads = s.freeReads := rfl
@[simp] theorem State.logEvent_trace : (s.logEvent e).trace = s.trace ++ [e] := rfl
@[simp] theorem State.logEvent_bridge : (s.logEvent e).bridge = s.bridge := rfl

end

/-! ### State.setBridge -/

section
variable (s : State) (x : Bridge)

@[simp] theorem State.setBridge_cfg : (s.setBridge x).cfg = s.cfg := rfl
@[simp] theorem State.setBridge_wm : (s.setBridge x).wm = s.wm := rfl
@[simp] theorem State.setBridge_wmu : (s.setBridge x).wmu = s.wmu := rfl
@[simp] theorem State.setBridge_rm : (s.setBridge x).rm = s.rm := rfl
@[simp] theorem State.setBridge_pd : (s.setBridge x).pd = s.pd := rfl
@[simp] theorem State.setBridge_pu : (s.setBridge x).pu = s.pu := rfl
@[simp] theorem State.setBridge_buf : (s.setBridge x).buf = s.buf := rfl
@[simp] theorem State.setBridge_wbuf : (s.setBridge x).wbuf = s.wbuf := rfl
@[simp] theorem State.setBridge_ts : (s.setBridge x).ts = s.ts := rfl
@[simp] theorem State.setBridge_phase : (s.setBridge x).phase = s.phase := rfl
@[simp] theorem State.setBridge_resp : (s.setBridge x).resp = s.resp := rfl
@[simp] theorem State.setBridge_stuck : (s.setBridge x).stuck = s.stuck := rfl
@[simp] theorem State.setBridge_now : (s.setBridge x).now = s.now := rfl
@[simp] theorem State.setBridge_posIn : (s.setBridge x).posIn = s.posIn := rfl
@[simp] theorem State.setBridge_host : (s.setBridge x).host = s.host := rfl
@[simp] theorem State.setBridge_writeAnswers : (s.setBridge x).writeAnswers = s.writeAnswers := rfl
@[simp] theorem State.setBridge_readAnswers : (s.setBridge x).readAnswers = s.readAnswers := rfl
@[simp] theorem State.setBridge_freeWrites : (s.setBridge x).freeWrites = s.freeWrites := rfl
@[simp] theorem State.setBridge_freeReads : (s.setBridge x).freeReads = s.freeReads := rfl
@[simp] theorem State.setBridge_trace : (s.setBridge x).trace = s.trace := rfl
@[simp] theorem State.setBridge_bridge : (s.setBridge x).bridge = x := rfl

end

/-! ### State.setHost -/

section
variable (s : State) (h : List HostAction)

@[simp] theorem State.setHost_cfg : (s.setHost h).cfg = s.cfg := rfl
@[simp] theorem State.setHost_wm : (s.setHost h).wm = s.wm := rfl
@[simp] theorem State.setHost_wmu : (s.setHost h).wmu = s.wmu := rfl
@[simp] theorem State.setHost_rm : (s.setHost h).rm = s.rm := rfl
@[simp] theorem State.setHost_pd : (s.setHost h).pd = s.pd := rfl
@[simp] theorem State.setHost_pu : (s.setHost h).pu = s.pu := rfl
@[simp] theorem State.setHost_buf : (s.setHost h).buf = s.buf := rfl
@[simp] theorem State.setHost_wbuf : (s.setHost h).wbuf = s.wbuf := rfl
@[simp] theorem State.setHost_ts : (s.setHost h).ts = s.ts := rfl
@[simp] theorem State.setHost_phase : (s.setHost h).phase = s.phase := rfl
@[simp] theorem State.setHost_resp : (s.setHost h).resp = s.resp := rfl
@[simp] theorem State.setHost_stuck : (s.setHost h).stuck = s.stuck := rfl
@[simp] theorem State.setHost_now : (s.setHost h).now = s.now := rfl
@[simp] theorem State.setHost_posIn : (s.setHost h).posIn = s.posIn := rfl
@[simp] theorem State.setHost_host : (s.setHost h).host = h := rfl
@[simp] theorem State.setHost_writeAnswers : (s.setHost h).writeAnswers = s.writeAnswers := rfl
@[simp] theorem State.setHost_readAnswers : (s.setHost h).readAnswers = s.readAnswers := rfl
@[simp] theorem State.setHost_freeWrites : (s.setHost h).freeWrites = s.freeWrites := rfl
@[simp] theorem State.setHost_freeReads : (s.setHost h).freeReads = s.freeReads := rfl
@[simp] theorem State.setHost_trace : (s.setHost h).trace = s.trace := rfl
@[simp] theorem State.setHost_bridge : (s.setHost h).bridge = s.bridge := rfl

end

/-! ### State.accept -/

section
variable (s : State) (h : List HostAction) (p a : Nat)

@[simp] theorem State.accept_cfg : (s.accept h p a).cfg = s.cfg := rfl
@[simp] theorem State.accept_wm : (s.accept h p a).wm = s.wm := rfl
@[simp] theorem State.accept_wmu : (s.accept h p a).wmu = s.wmu := rfl
@[simp] theorem State.accept_rm : (s.accept h p a).rm = s.rm := rfl
@[simp] theorem State.accept_pd : (s.accept h p a).pd = s.pd := rfl
@[simp] theorem State.accept_pu : (s.accept h p a).pu = s.pu := rfl
@[simp] theorem State.accept_buf : (s.accept h p a).buf = s.buf := rfl
@[simp] theorem State.accept_wbuf : (s.accept h p a).wbuf = s.wbuf := rfl
@[simp] theorem State.accept_ts : (s.accept h p a).ts = s.ts := rfl
@[simp] theorem State.accept_phase : (s.accept h p a).phase = s.phase := rfl
@[simp] theorem State.accept_resp : (s.accept h p a).resp = s.resp := rfl
@[simp] theorem State.accept_stuck : (s.accept h p a).stuck = s.stuck := rfl
@[simp] theorem State.accept_now : (s.accept h p a).now = (s.now + a) % 2 ^ s.cfg.tsW := rfl
@[simp] theorem State.accept_posIn : (s.accept h p a).posIn = p % 2 ^ s.cfg.posW := rfl
@[simp] theorem State.accept_host : (s.accept h p a).host = h := rfl
@[simp] theorem State.accept_writeAnswers : (s.accept h p a).writeAnswers = s.writeAnswers := rfl
@[simp] theorem State.accept_readAnswers : (s.accept h p a).readAnswers = s.readAnswers := rfl
@[simp] theorem State.accept_freeWrites : (s.accept h p a).freeWrites = s.freeWrites := rfl
@[simp] theorem State.accept_freeReads : (s.accept h p a).freeReads = s.freeReads := rfl
@[simp] theorem State.accept_trace : (s.accept h p a).trace = s.trace := rfl
@[simp] theorem State.accept_bridge : (s.accept h p a).bridge = s.bridge := rfl

end

end Sys2Proof.Machine
end

