-- ==== Sys2Proof/Laws/Ops.lean ====
section
/-! SUPPORT. What each shared operation of Machine/Ops.lean can do, said once: the fields of the states around a
bus transaction or a bridge event, and the three ways a transaction ends. -/

namespace Sys2Proof.Machine

open Sys2Proof

/-! ### Sequencing -/

@[simp] theorem Progress.done_andThen {α β : Type} (a : α) (s : State) (k : α → State → Progress β) :
    (Progress.done a s).andThen k = k a s := rfl

@[simp] theorem Progress.stuck_andThen {α β : Type} (s : State) (k : α → State → Progress β) :
    (Progress.stuck s : Progress α).andThen k = .stuck s := rfl

@[simp] theorem Progress.settle_done (r : Response) (s : State) :
    (Progress.done r s).settle = s.setResp r := rfl

@[simp] theorem Progress.settle_stuck (s : State) : (Progress.stuck s : Progress Response).settle = s := rfl

/-- A command always leaves a next state (R58). -/
theorem commit_eq (x : Progress Response) : commit x = .next x.settle := rfl

/-! ### Answers of the bus device -/

section
variable (s : State)

@[simp] theorem State.takeWriteAnswer_cfg : s.takeWriteAnswer.cfg = s.cfg := by
  unfold State.takeWriteAnswer; split <;> rfl
@[simp] theorem State.takeWriteAnswer_wm : s.takeWriteAnswer.wm = s.wm := by
  unfold State.takeWriteAnswer; split <;> rfl
@[simp] theorem State.takeWriteAnswer_wmu : s.takeWriteAnswer.wmu = s.wmu := by
  unfold State.takeWriteAnswer; split <;> rfl
@[simp] theorem State.takeWriteAnswer_rm : s.takeWriteAnswer.rm = s.rm := by
  unfold State.takeWriteAnswer; split <;> rfl
@[simp] theorem State.takeWriteAnswer_pd : s.takeWriteAnswer.pd = s.pd := by
  unfold State.takeWriteAnswer; split <;> rfl
@[simp] theorem State.takeWriteAnswer_pu : s.takeWriteAnswer.pu = s.pu := by
  unfold State.takeWriteAnswer; split <;> rfl
@[simp] theorem State.takeWriteAnswer_buf : s.takeWriteAnswer.buf = s.buf := by
  unfold State.takeWriteAnswer; split <;> rfl
@[simp] theorem State.takeWriteAnswer_wbuf : s.takeWriteAnswer.wbuf = s.wbuf := by
  unfold State.takeWriteAnswer; split <;> rfl
@[simp] theorem State.takeWriteAnswer_ts : s.takeWriteAnswer.ts = s.ts := by
  unfold State.takeWriteAnswer; split <;> rfl
@[simp] theorem State.takeWriteAnswer_phase : s.takeWriteAnswer.phase = s.phase := by
  unfold State.takeWriteAnswer; split <;> rfl
@[simp] theorem State.takeWriteAnswer_resp : s.takeWriteAnswer.resp = s.resp := by
  unfold State.takeWriteAnswer; split <;> rfl
@[simp] theorem State.takeWriteAnswer_stuck : s.takeWriteAnswer.stuck = s.stuck := by
  unfold State.takeWriteAnswer; split <;> rfl
@[simp] theorem State.takeWriteAnswer_now : s.takeWriteAnswer.now = s.now := by
  unfold State.takeWriteAnswer; split <;> rfl
@[simp] theorem State.takeWriteAnswer_posIn : s.takeWriteAnswer.posIn = s.posIn := by
  unfold State.takeWriteAnswer; split <;> rfl
@[simp] theorem State.takeWriteAnswer_host : s.takeWriteAnswer.host = s.host := by
  unfold State.takeWriteAnswer; split <;> rfl
@[simp] theorem State.takeWriteAnswer_readAnswers : s.takeWriteAnswer.readAnswers = s.readAnswers := by
  unfold State.takeWriteAnswer; split <;> rfl
@[simp] theorem State.takeWriteAnswer_freeReads : s.takeWriteAnswer.freeReads = s.freeReads := by
  unfold State.takeWriteAnswer; split <;> rfl
@[simp] theorem State.takeWriteAnswer_trace : s.takeWriteAnswer.trace = s.trace := by
  unfold State.takeWriteAnswer; split <;> rfl
@[simp] theorem State.takeWriteAnswer_bridge : s.takeWriteAnswer.bridge = s.bridge := by
  unfold State.takeWriteAnswer; split <;> rfl

end

section
variable (s : State)

@[simp] theorem State.takeReadAnswer_cfg : s.takeReadAnswer.cfg = s.cfg := by
  unfold State.takeReadAnswer; split <;> rfl
@[simp] theorem State.takeReadAnswer_wm : s.takeReadAnswer.wm = s.wm := by
  unfold State.takeReadAnswer; split <;> rfl
@[simp] theorem State.takeReadAnswer_wmu : s.takeReadAnswer.wmu = s.wmu := by
  unfold State.takeReadAnswer; split <;> rfl
@[simp] theorem State.takeReadAnswer_rm : s.takeReadAnswer.rm = s.rm := by
  unfold State.takeReadAnswer; split <;> rfl
@[simp] theorem State.takeReadAnswer_pd : s.takeReadAnswer.pd = s.pd := by
  unfold State.takeReadAnswer; split <;> rfl
@[simp] theorem State.takeReadAnswer_pu : s.takeReadAnswer.pu = s.pu := by
  unfold State.takeReadAnswer; split <;> rfl
@[simp] theorem State.takeReadAnswer_buf : s.takeReadAnswer.buf = s.buf := by
  unfold State.takeReadAnswer; split <;> rfl
@[simp] theorem State.takeReadAnswer_wbuf : s.takeReadAnswer.wbuf = s.wbuf := by
  unfold State.takeReadAnswer; split <;> rfl
@[simp] theorem State.takeReadAnswer_ts : s.takeReadAnswer.ts = s.ts := by
  unfold State.takeReadAnswer; split <;> rfl
@[simp] theorem State.takeReadAnswer_phase : s.takeReadAnswer.phase = s.phase := by
  unfold State.takeReadAnswer; split <;> rfl
@[simp] theorem State.takeReadAnswer_resp : s.takeReadAnswer.resp = s.resp := by
  unfold State.takeReadAnswer; split <;> rfl
@[simp] theorem State.takeReadAnswer_stuck : s.takeReadAnswer.stuck = s.stuck := by
  unfold State.takeReadAnswer; split <;> rfl
@[simp] theorem State.takeReadAnswer_now : s.takeReadAnswer.now = s.now := by
  unfold State.takeReadAnswer; split <;> rfl
@[simp] theorem State.takeReadAnswer_posIn : s.takeReadAnswer.posIn = s.posIn := by
  unfold State.takeReadAnswer; split <;> rfl
@[simp] theorem State.takeReadAnswer_host : s.takeReadAnswer.host = s.host := by
  unfold State.takeReadAnswer; split <;> rfl
@[simp] theorem State.takeReadAnswer_writeAnswers : s.takeReadAnswer.writeAnswers = s.writeAnswers := by
  unfold State.takeReadAnswer; split <;> rfl
@[simp] theorem State.takeReadAnswer_freeWrites : s.takeReadAnswer.freeWrites = s.freeWrites := by
  unfold State.takeReadAnswer; split <;> rfl
@[simp] theorem State.takeReadAnswer_trace : s.takeReadAnswer.trace = s.trace := by
  unfold State.takeReadAnswer; split <;> rfl
@[simp] theorem State.takeReadAnswer_bridge : s.takeReadAnswer.bridge = s.bridge := by
  unfold State.takeReadAnswer; split <;> rfl

end

section
variable (s : State) (b : Byte)

@[simp] theorem State.afterWrite_cfg : (s.afterWrite b).cfg = s.cfg := by
  simp [State.afterWrite]
@[simp] theorem State.afterWrite_wm : (s.afterWrite b).wm = s.wm := by
  simp [State.afterWrite]
@[simp] theorem State.afterWrite_wmu : (s.afterWrite b).wmu = s.wmu := by
  simp [State.afterWrite]
@[simp] theorem State.afterWrite_rm : (s.afterWrite b).rm = s.rm := by
  simp [State.afterWrite]
@[simp] theorem State.afterWrite_pd : (s.afterWrite b).pd = s.pd := by
  simp [State.afterWrite]
@[simp] theorem State.afterWrite_pu : (s.afterWrite b).pu = s.pu := by
  simp [State.afterWrite]
@[simp] theorem State.afterWrite_buf : (s.afterWrite b).buf = s.buf := by
  simp [State.afterWrite]
@[simp] theorem State.afterWrite_wbuf : (s.afterWrite b).wbuf = s.wbuf := by
  simp [State.afterWrite]
@[simp] theorem State.afterWrite_ts : (s.afterWrite b).ts = s.ts := by
  simp [State.afterWrite]
@[simp] theorem State.afterWrite_phase : (s.afterWrite b).phase = s.phase := by
  simp [State.afterWrite]
@[simp] theorem State.afterWrite_resp : (s.afterWrite b).resp = s.resp := by
  simp [State.afterWrite]
@[simp] theorem State.afterWrite_stuck : (s.afterWrite b).stuck = s.stuck := by
  simp [State.afterWrite]
@[simp] theorem State.afterWrite_now : (s.afterWrite b).now = s.now := by
  simp [State.afterWrite]
@[simp] theorem State.afterWrite_posIn : (s.afterWrite b).posIn = s.posIn := by
  simp [State.afterWrite]
@[simp] theorem State.afterWrite_host : (s.afterWrite b).host = s.host := by
  simp [State.afterWrite]
@[simp] theorem State.afterWrite_writeAnswers : (s.afterWrite b).writeAnswers = s.takeWriteAnswer.writeAnswers := by
  simp [State.afterWrite]
@[simp] theorem State.afterWrite_readAnswers : (s.afterWrite b).readAnswers = s.readAnswers := by
  simp [State.afterWrite]
@[simp] theorem State.afterWrite_freeWrites : (s.afterWrite b).freeWrites = s.takeWriteAnswer.freeWrites := by
  simp [State.afterWrite]
@[simp] theorem State.afterWrite_freeReads : (s.afterWrite b).freeReads = s.freeReads := by
  simp [State.afterWrite]
@[simp] theorem State.afterWrite_trace : (s.afterWrite b).trace = s.trace ++ [.busWrite s.cfg.devAddr b s.nextWriteAnswer] := by
  simp [State.afterWrite]
@[simp] theorem State.afterWrite_bridge : (s.afterWrite b).bridge = s.bridge := by
  simp [State.afterWrite]

end

section
variable (s : State)

@[simp] theorem State.afterRead_cfg : (s.afterRead).cfg = s.cfg := by
  simp [State.afterRead]
@[simp] theorem State.afterRead_wm : (s.afterRead).wm = s.wm := by
  simp [State.afterRead]
@[simp] theorem State.afterRead_wmu : (s.afterRead).wmu = s.wmu := by
  simp [State.afterRead]
@[simp] theorem State.afterRead_rm : (s.afterRead).rm = s.rm := by
  simp [State.afterRead]
@[simp] theorem State.afterRead_pd : (s.afterRead).pd = s.pd := by
  simp [State.afterRead]
@[simp] theorem State.afterRead_pu : (s.afterRead).pu = s.pu := by
  simp [State.afterRead]
@[simp] theorem State.afterRead_buf : (s.afterRead).buf = s.buf := by
  simp [State.afterRead]
@[simp] theorem State.afterRead_wbuf : (s.afterRead).wbuf = s.wbuf := by
  simp [State.afterRead]
@[simp] theorem State.afterRead_ts : (s.afterRead).ts = s.ts := by
  simp [State.afterRead]
@[simp] theorem State.afterRead_phase : (s.afterRead).phase = s.phase := by
  simp [State.afterRead]
@[simp] theorem State.afterRead_resp : (s.afterRead).resp = s.resp := by
  simp [State.afterRead]
@[simp] theorem State.afterRead_stuck : (s.afterRead).stuck = s.stuck := by
  simp [State.afterRead]
@[simp] theorem State.afterRead_now : (s.afterRead).now = s.now := by
  simp [State.afterRead]
@[simp] theorem State.afterRead_posIn : (s.afterRead).posIn = s.posIn := by
  simp [State.afterRead]
@[simp] theorem State.afterRead_host : (s.afterRead).host = s.host := by
  simp [State.afterRead]
@[simp] theorem State.afterRead_writeAnswers : (s.afterRead).writeAnswers = s.writeAnswers := by
  simp [State.afterRead]
@[simp] theorem State.afterRead_readAnswers : (s.afterRead).readAnswers = s.takeReadAnswer.readAnswers := by
  simp [State.afterRead]
@[simp] theorem State.afterRead_freeWrites : (s.afterRead).freeWrites = s.freeWrites := by
  simp [State.afterRead]
@[simp] theorem State.afterRead_freeReads : (s.afterRead).freeReads = s.takeReadAnswer.freeReads := by
  simp [State.afterRead]
@[simp] theorem State.afterRead_trace : (s.afterRead).trace = s.trace ++ [.busRead s.cfg.devAddr s.nextReadAnswer] := by
  simp [State.afterRead]
@[simp] theorem State.afterRead_bridge : (s.afterRead).bridge = s.bridge := by
  simp [State.afterRead]

end

/-! ### Which answer comes next depends on the answers alone -/

theorem State.nextWriteAnswer_congr {s t : State} (hw : t.writeAnswers = s.writeAnswers)
    (hf : t.freeWrites = s.freeWrites) : t.nextWriteAnswer = s.nextWriteAnswer := by
  simp only [State.nextWriteAnswer, hw, hf]

theorem State.nextReadAnswer_congr {s t : State} (hr : t.readAnswers = s.readAnswers)
    (hf : t.freeReads = s.freeReads) : t.nextReadAnswer = s.nextReadAnswer := by
  simp only [State.nextReadAnswer, hr, hf]

@[simp] theorem State.setTs_nextWriteAnswer (s : State) (n : Nat) :
    (s.setTs n).nextWriteAnswer = s.nextWriteAnswer := rfl

@[simp] theorem State.setTs_nextReadAnswer (s : State) (n : Nat) :
    (s.setTs n).nextReadAnswer = s.nextReadAnswer := rfl

@[simp] theorem State.setWbuf_nextWriteAnswer (s : State) (b : Byte) :
    (s.setWbuf b).nextWriteAnswer = s.nextWriteAnswer := rfl

@[simp] theorem State.setBuf_nextWriteAnswer (s : State) (b : Byte) :
    (s.setBuf b).nextWriteAnswer = s.nextWriteAnswer := rfl

@[simp] theorem State.setBuf_nextReadAnswer (s : State) (b : Byte) :
    (s.setBuf b).nextReadAnswer = s.nextReadAnswer := rfl

@[simp] theorem State.setStuck_nextReadAnswer (s : State) :
    s.setStuck.nextReadAnswer = s.nextReadAnswer := rfl

@[simp] theorem State.afterWrite_nextReadAnswer (s : State) (b : Byte) :
    (s.afterWrite b).nextReadAnswer = s.nextReadAnswer :=
  State.nextReadAnswer_congr (by simp) (by simp)

@[simp] theorem emitDetach_nextWriteAnswer (s : State) :
    (emitDetach s).nextWriteAnswer = s.nextWriteAnswer := rfl

@[simp] theorem emitDetach_nextReadAnswer (s : State) :
    (emitDetach s).nextReadAnswer = s.nextReadAnswer := rfl

/-! ### Taking an answer commutes with writing a register -/

theorem State.setWbuf_takeWriteAnswer (s : State) (b : Byte) :
    (s.setWbuf b).takeWriteAnswer = s.takeWriteAnswer.setWbuf b := by
  unfold State.takeWriteAnswer; simp only [State.setWbuf_writeAnswers]; split <;> rfl

theorem State.setTs_takeWriteAnswer (s : State) (n : Nat) :
    (s.setTs n).takeWriteAnswer = s.takeWriteAnswer.setTs n := by
  unfold State.takeWriteAnswer; simp only [State.setTs_writeAnswers]; split <;> rfl

theorem State.setTs_takeReadAnswer (s : State) (n : Nat) :
    (s.setTs n).takeReadAnswer = s.takeReadAnswer.setTs n := by
  unfold State.takeReadAnswer; simp only [State.setTs_readAnswers]; split <;> rfl

theorem State.logEvent_takeReadAnswer (s : State) (e : PortEvent) :
    (s.logEvent e).takeReadAnswer = s.takeReadAnswer.logEvent e := by
  unfold State.takeReadAnswer; simp only [State.logEvent_readAnswers]; split <;> rfl

/-- Which read answers are left does not depend on the write answers taken. -/
theorem State.takeReadAnswer_congr {s t : State} (hr : t.readAnswers = s.readAnswers)
    (hf : t.freeReads = s.freeReads) :
    t.takeReadAnswer.readAnswers = s.takeReadAnswer.readAnswers ∧
      t.takeReadAnswer.freeReads = s.takeReadAnswer.freeReads := by
  unfold State.takeReadAnswer
  rw [hr]
  split
  · exact ⟨rfl, hf⟩
  · exact ⟨rfl, by simp [hf]⟩

/-! ### The bus primitives: the three ways a transaction ends -/

theorem busWrite_ack {b : Byte} {s : State} (h : s.nextWriteAnswer = .ack) :
    busWrite b s = .done true (s.afterWrite b) := by simp [busWrite, h]

theorem busWrite_nack {b : Byte} {s : State} (h : s.nextWriteAnswer = .nack) :
    busWrite b s = .done false (s.afterWrite b) := by simp [busWrite, h]

theorem busWrite_never {b : Byte} {s : State} (h : s.nextWriteAnswer = .never) :
    busWrite b s = .stuck (s.afterWrite b).setStuck := by simp [busWrite, h]

theorem busWrite_cases (b : Byte) (s : State) :
    (s.nextWriteAnswer = .ack ∧ busWrite b s = .done true (s.afterWrite b)) ∨
    (s.nextWriteAnswer = .nack ∧ busWrite b s = .done false (s.afterWrite b)) ∨
    (s.nextWriteAnswer = .never ∧ busWrite b s = .stuck (s.afterWrite b).setStuck) := by
  unfold busWrite
  cases s.nextWriteAnswer <;> simp

theorem busRead_byte {r : Byte} {s : State} (h : s.nextReadAnswer = .byte r) :
    busRead s = .done (some r) s.afterRead := by simp [busRead, h]

theorem busRead_empty {s : State} (h : s.nextReadAnswer = .empty) :
    busRead s = .done none s.afterRead := by simp [busRead, h]

theorem busRead_never {s : State} (h : s.nextReadAnswer = .never) :
    busRead s = .stuck s.afterRead.setStuck := by simp [busRead, h]

theorem busRead_cases (s : State) :
    (∃ r, s.nextReadAnswer = .byte r ∧ busRead s = .done (some r) s.afterRead) ∨
    (s.nextReadAnswer = .empty ∧ busRead s = .done none s.afterRead) ∨
    (s.nextReadAnswer = .never ∧ busRead s = .stuck s.afterRead.setStuck) := by
  unfold busRead
  cases s.nextReadAnswer <;> simp

/-! ### The bridge -/

@[simp] theorem edgeOfCall_none : edgeOfCall none = .fallingEdge := rfl
@[simp] theorem edgeOfCall_some (e : EdgeKind) : edgeOfCall (some e) = e := rfl
@[simp] theorem Bridge.attachCall_eq (line callback : Nat) (edge : Option EdgeKind) (br : Bridge) :
    br.attachCall line callback edge = br.attach ⟨line, callback, edgeOfCall edge⟩ := rfl
@[simp] theorem Bridge.attach_attached (a : Attachment) (br : Bridge) : (br.attach a).attached = true := rfl
@[simp] theorem Bridge.attach_last (a : Attachment) (br : Bridge) : (br.attach a).last = some a := rfl
@[simp] theorem Bridge.detach_attached (br : Bridge) : br.detach.attached = false := rfl
@[simp] theorem Bridge.detach_last (br : Bridge) : br.detach.last = br.last := rfl

@[simp] theorem Bridge.reattach_last (br : Bridge) : br.reattach.last = br.last := by
  unfold Bridge.reattach; split <;> simp_all

theorem Bridge.reattach_attached (br : Bridge) :
    br.reattach.attached = (br.attached || br.last.isSome) := by
  unfold Bridge.reattach; split <;> simp_all

section
variable (s : State)

@[simp] theorem emitDetach_cfg : (emitDetach s).cfg = s.cfg := rfl
@[simp] theorem emitDetach_wm : (emitDetach s).wm = s.wm := rfl
@[simp] theorem emitDetach_wmu : (emitDetach s).wmu = s.wmu := rfl
@[simp] theorem emitDetach_rm : (emitDetach s).rm = s.rm := rfl
@[simp] theorem emitDetach_pd : (emitDetach s).pd = s.pd := rfl
@[simp] theorem emitDetach_pu : (emitDetach s).pu = s.pu := rfl
@[simp] theorem emitDetach_buf : (emitDetach s).buf = s.buf := rfl
@[simp] theorem emitDetach_wbuf : (emitDetach s).wbuf = s.wbuf := rfl
@[simp] theorem emitDetach_ts : (emitDetach s).ts = s.ts := rfl
@[simp] theorem emitDetach_phase : (emitDetach s).phase = s.phase := rfl
@[simp] theorem emitDetach_resp : (emitDetach s).resp = s.resp := rfl
@[simp] theorem emitDetach_stuck : (emitDetach s).stuck = s.stuck := rfl
@[simp] theorem emitDetach_now : (emitDetach s).now = s.now := rfl
@[simp] theorem emitDetach_posIn : (emitDetach s).posIn = s.posIn := rfl
@[simp] theorem emitDetach_host : (emitDetach s).host = s.host := rfl
@[simp] theorem emitDetach_writeAnswers : (emitDetach s).writeAnswers = s.writeAnswers := rfl
@[simp] theorem emitDetach_readAnswers : (emitDetach s).readAnswers = s.readAnswers := rfl
@[simp] theorem emitDetach_freeWrites : (emitDetach s).freeWrites = s.freeWrites := rfl
@[simp] theorem emitDetach_freeReads : (emitDetach s).freeReads = s.freeReads := rfl
@[simp] theorem emitDetach_trace : (emitDetach s).trace = s.trace ++ [.detach] := rfl
@[simp] theorem emitDetach_bridge : (emitDetach s).bridge = s.bridge.detach := rfl

end

section
variable (s : State)

@[simp] theorem emitReattach_cfg : (emitReattach s).cfg = s.cfg := rfl
@[simp] theorem emitReattach_wm : (emitReattach s).wm = s.wm := rfl
@[simp] theorem emitReattach_wmu : (emitReattach s).wmu = s.wmu := rfl
@[simp] theorem emitReattach_rm : (emitReattach s).rm = s.rm := rfl
@[simp] theorem emitReattach_pd : (emitReattach s).pd = s.pd := rfl
@[simp] theorem emitReattach_pu : (emitReattach s).pu = s.pu := rfl
@[simp] theorem emitReattach_buf : (emitReattach s).buf = s.buf := rfl
@[simp] theorem emitReattach_wbuf : (emitReattach s).wbuf = s.wbuf := rfl
@[simp] theorem emitReattach_ts : (emitReattach s).ts = s.ts := rfl
@[simp] theorem emitReattach_phase : (emitReattach s).phase = s.phase := rfl
@[simp] theorem emitReattach_resp : (emitReattach s).resp = s.resp := rfl
@[simp] theorem emitReattach_stuck : (emitReattach s).stuck = s.stuck := rfl
@[simp] theorem emitReattach_now : (emitReattach s).now = s.now := rfl
@[simp] theorem emitReattach_posIn : (emitReattach s).posIn = s.posIn := rfl
@[simp] theorem emitReattach_host : (emitReattach s).host = s.host := rfl
@[simp] theorem emitReattach_writeAnswers : (emitReattach s).writeAnswers = s.writeAnswers := rfl
@[simp] theorem emitReattach_readAnswers : (emitReattach s).readAnswers = s.readAnswers := rfl
@[simp] theorem emitReattach_freeWrites : (emitReattach s).freeWrites = s.freeWrites := rfl
@[simp] theorem emitReattach_freeReads : (emitReattach s).freeReads = s.freeReads := rfl
@[simp] theorem emitReattach_trace : (emitReattach s).trace = s.trace ++ [.reattach] := rfl
@[simp] theorem emitReattach_bridge : (emitReattach s).bridge = s.bridge.reattach := rfl

end

end Sys2Proof.Machine
end

