-- ==== Sys2Proof/Laws/ReadPath.lean ====
section
/-! SUPPORT. What Transmit, PhysicalRead, ReadPin and the steps of RDA can do, said once
(spec/41_iobuffer.md R111 to R113, R117). -/

namespace Sys2Proof.Machine

open Sys2Proof

/-! ### PhysicalRead -/

/-- The block right after PhysicalRead has put the byte `RM` on the bus (R112). -/
def afterPrepare (s : State) : State := (s.setTs s.now).afterWrite s.rm

theorem physicalRead_write_never {s : State} (h : s.nextWriteAnswer = .never) :
    physicalRead s = .stuck (afterPrepare s).setStuck := by
  simp [physicalRead, busWrite, h, afterPrepare]

theorem physicalRead_nack {s : State} (h : s.nextWriteAnswer = .nack) :
    physicalRead s = .done () (afterPrepare s) := by
  simp [physicalRead, busWrite, h, afterPrepare]

theorem physicalRead_read_never {s : State} (h : s.nextWriteAnswer = .ack) (hr : s.nextReadAnswer = .never) :
    physicalRead s = .stuck (afterPrepare s).afterRead.setStuck := by
  simp [physicalRead, busWrite, busRead, h, hr, afterPrepare]

theorem physicalRead_empty {s : State} (h : s.nextWriteAnswer = .ack) (hr : s.nextReadAnswer = .empty) :
    physicalRead s = .done () (afterPrepare s).afterRead := by
  simp [physicalRead, busWrite, busRead, h, hr, afterPrepare]

theorem physicalRead_byte {s : State} {r : Byte} (h : s.nextWriteAnswer = .ack)
    (hr : s.nextReadAnswer = .byte r) :
    physicalRead s = .done () (mergeByte r (afterPrepare s).afterRead) := by
  simp [physicalRead, busWrite, busRead, h, hr, afterPrepare]

/-- The five ways PhysicalRead ends. -/
theorem physicalRead_cases (s : State) :
    (s.nextWriteAnswer = .never ∧ physicalRead s = .stuck (afterPrepare s).setStuck) ∨
    (s.nextWriteAnswer = .nack ∧ physicalRead s = .done () (afterPrepare s)) ∨
    (s.nextWriteAnswer = .ack ∧ s.nextReadAnswer = .never ∧
      physicalRead s = .stuck (afterPrepare s).afterRead.setStuck) ∨
    (s.nextWriteAnswer = .ack ∧ s.nextReadAnswer = .empty ∧
      physicalRead s = .done () (afterPrepare s).afterRead) ∨
    (∃ r, s.nextWriteAnswer = .ack ∧ s.nextReadAnswer = .byte r ∧
      physicalRead s = .done () (mergeByte r (afterPrepare s).afterRead)) := by
  cases h : s.nextWriteAnswer with
  | never => exact .inl ⟨rfl, physicalRead_write_never h⟩
  | nack => exact .inr (.inl ⟨rfl, physicalRead_nack h⟩)
  | ack =>
    cases hr : s.nextReadAnswer with
    | never => exact .inr (.inr (.inl ⟨rfl, rfl, physicalRead_read_never h hr⟩))
    | empty => exact .inr (.inr (.inr (.inl ⟨rfl, rfl, physicalRead_empty h hr⟩)))
    | byte r => exact .inr (.inr (.inr (.inr ⟨r, rfl, rfl, physicalRead_byte h hr⟩)))

/-! ### The steps that only touch BUF -/

/-- The byte BUF holds once a read byte `r` has been taken in: merged, or `r` discarded (R112). -/
def takenIn (r : Byte) (s : State) : Byte := if qualifyingEdges r s = 0#8 then s.buf else mergedByte r s

theorem mergeByte_eq (r : Byte) (s : State) : mergeByte r s = s.setBuf (takenIn r s) := by
  unfold mergeByte takenIn
  split <;> rfl

/-- The byte BUF holds once the latch of `p` is consumed (R113 step 5). -/
def consumed (p : Pin) (s : State) : Byte :=
  if pinBit s.pd p && pinBit s.buf p then setPinBit s.buf p false
  else if pinBit s.pu p && !pinBit s.buf p then setPinBit s.buf p true
  else s.buf

theorem consumeLatch_eq (p : Pin) (s : State) : consumeLatch p s = s.setBuf (consumed p s) := by
  unfold consumeLatch consumed
  split
  · rfl
  · split <;> rfl

/-- Consuming the latch of `p` changes the bit of `p` alone. -/
theorem pinBit_consumed (p q : Pin) (s : State) :
    pinBit (consumed p s) q =
      if q = p ∧ pinBit s.pd p = true ∧ pinBit s.buf p = true then false
      else if q = p ∧ pinBit s.pu p = true ∧ pinBit s.buf p = false then true
      else pinBit s.buf q := by
  unfold consumed
  by_cases h : q = p
  · subst h
    cases pinBit s.pd q <;> cases pinBit s.pu q <;> cases hb : pinBit s.buf q <;> simp [hb]
  · cases pinBit s.pd p <;> cases pinBit s.pu p <;> cases pinBit s.buf p <;> simp [h]

/-- Under the PCR invariant the three masks of a pin are never in conflict (spec/10_state.md R26). -/
theorem pcr_bits {s : State} (h : s.pcrInv) (p : Pin) :
    (pinBit s.wm p && pinBit s.rm p) = false ∧ (pinBit s.pd p && pinBit s.pu p) = false ∧
      (pinBit s.pd p || pinBit s.pu p) = pinBit s.rm p := by
  obtain ⟨h1, h2, h3⟩ := h
  refine ⟨?_, ?_, ?_⟩
  · rw [← pinBit_and, h1]; simp
  · rw [← pinBit_and, h2]; simp
  · rw [← pinBit_or, h3]

/-- Pin by pin, taking in a byte is what R112 says. -/
theorem pinBit_takenIn (r : Byte) (s : State) (q : Pin) : pinBit (takenIn r s) q = levelAfterRead r s q := by
  have hq : qualifyingEdges r s = 0#8 ↔ showsEdge r s = false := by
    rw [byte_eq_zero_iff]
    simp [showsEdge, qualifyingEdges, mem_allPins]
  unfold takenIn levelAfterRead
  by_cases h : qualifyingEdges r s = 0#8
  · rw [if_pos h, hq.1 h]; simp
  · have hs : showsEdge r s = true := by simpa using fun h' => h (hq.2 h')
    rw [if_neg h, hs]
    cases hr : pinBit s.rm q <;> simp [mergedByte, hr]

/-- A latch that is not set is not consumed. -/
theorem consumed_of_not_latched {p : Pin} {s : State} (h : latched p s = false) : consumed p s = s.buf := by
  unfold latched at h
  unfold consumed
  cases hd : pinBit s.pd p <;> cases hu : pinBit s.pu p <;> cases hb : pinBit s.buf p <;> simp_all

/-- The value of a pin is what R113 says it reports for the level in BUF. -/
theorem pinValue_eq (p : Pin) (s : State) : pinValue p s = reported s p (pinBit s.buf p) := rfl

/-- DATA of RD, as a number. -/
theorem setWidth_ofBool (v : Bool) : (BitVec.ofBool v).setWidth 8 = rdData v := by cases v <;> decide

/-! ### ReadPin -/

/-- ReadPin without a bus access: latched, or neither forced nor past the window (R113 steps 2 and 3). -/
theorem readPin_cached {p : Pin} {f : Bool} {s : State}
    (h : latched p s = true ∨ (f = false ∧ windowExpired s = false)) :
    readPin p f s = .done (pinValue p s) (consumeLatch p s) := by
  unfold readPin
  rcases h with h | ⟨hf, hw⟩ <;> simp [*]

/-- ReadPin with a physical read (R113 step 3). -/
theorem readPin_physical {p : Pin} {f : Bool} {s : State}
    (hl : latched p s = false) (h : f = true ∨ windowExpired s = true) :
    readPin p f s = (physicalRead s).andThen fun _ s1 => .done (pinValue p s1) (consumeLatch p s1) := by
  unfold readPin
  rcases h with h | h <;> simp [hl, h]

/-! ### The loop of RDA -/

@[simp] theorem readPins_nil (d : Byte) (s : State) : readPins [] d s = (d, s) := rfl

@[simp] theorem readPins_cons (i : Pin) (rest : List Pin) (d : Byte) (s : State) :
    readPins (i :: rest) d s =
      readPins rest (setPinBit d i (pinValue i s)) (consumeLatch i s) := rfl

/-- The loop writes BUF and nothing else. -/
theorem readPins_state (l : List Pin) (d : Byte) (s : State) :
    ∃ b, (readPins l d s).2 = s.setBuf b := by
  induction l generalizing d s with
  | nil => exact ⟨s.buf, rfl⟩
  | cons i rest ih =>
    obtain ⟨b, hb⟩ := ih (setPinBit d i (pinValue i s)) (consumeLatch i s)
    exact ⟨b, by rw [readPins_cons, hb, consumeLatch_eq]; rfl⟩

/-- The loop of RDA pin by pin: each pin of the list is reported and consumed once (R117). -/
theorem readPins_bits (l : List Pin) (d : Byte) (s : State) (hn : l.Nodup) :
    (∀ q, pinBit (readPins l d s).1 q = if q ∈ l then pinValue q s else pinBit d q) ∧
    (∀ q, pinBit (readPins l d s).2.buf q = if q ∈ l then pinBit (consumed q s) q else pinBit s.buf q) := by
  induction l generalizing d s with
  | nil => simp
  | cons i rest ih =>
    obtain ⟨h1, h2⟩ := ih (setPinBit d i (pinValue i s)) (consumeLatch i s) hn.tail
    have hi : i ∉ rest := (List.nodup_cons.1 hn).1
    constructor
    · intro q
      rw [readPins_cons, h1 q]
      by_cases hq : q = i
      · subst hq; simp [hi]
      · simp [hq, pinValue_eq, reported, consumeLatch_eq, pinBit_consumed]
    · intro q
      rw [readPins_cons, h2 q]
      by_cases hq : q = i
      · subst hq; simp [hi, consumeLatch_eq]
      · simp [hq, consumeLatch_eq, pinBit_consumed]

/-! ### Transmit -/

/-- The three ways Transmit ends (R111): the byte goes out, and no register changes. -/
theorem transmit_cases (s : State) :
    (s.nextWriteAnswer = .ack ∧ transmit s = .done true (s.afterWrite (outputByte s))) ∨
    (s.nextWriteAnswer = .nack ∧ transmit s = .done false (s.afterWrite (outputByte s))) ∨
    (s.nextWriteAnswer = .never ∧ transmit s = .stuck (s.afterWrite (outputByte s)).setStuck) :=
  busWrite_cases (outputByte s) s

end Sys2Proof.Machine
end

