-- ==== Sys2Proof/Laws/Frames.lean ====
section
/-! SUPPORT. What the read path leaves alone: the frame of PhysicalRead, ReadPin and the loop of RDA, and the ways an
encoder poll ends, said once, so that a claim about a command never unfolds them. -/

namespace Sys2Proof.Machine

open Sys2Proof

/-- The state a command part left, whether it ended or is stuck. -/
def Progress.state {α : Type} : Progress α → State
  | .done _ s => s
  | .stuck s => s

@[simp] theorem Progress.state_done {α : Type} (a : α) (s : State) : (Progress.done a s).state = s := rfl
@[simp] theorem Progress.state_stuck {α : Type} (s : State) : (Progress.stuck s : Progress α).state = s := rfl

/-- `t` comes from `s` by reads: no register but BUF and TS is written, and the response, the input ports and the
bridge stay as they are. -/
structure ReadFrame (s t : State) : Prop where
  cfg : t.cfg = s.cfg
  wm : t.wm = s.wm
  wmu : t.wmu = s.wmu
  rm : t.rm = s.rm
  pd : t.pd = s.pd
  pu : t.pu = s.pu
  wbuf : t.wbuf = s.wbuf
  phase : t.phase = s.phase
  resp : t.resp = s.resp
  now : t.now = s.now
  posIn : t.posIn = s.posIn
  host : t.host = s.host
  bridge : t.bridge = s.bridge
  /-- A pin that is no input keeps its BUF bit (spec/10_state.md R31). -/
  buf : s.pd ||| s.pu = s.rm → ∀ q, pinBit s.rm q = false → pinBit t.buf q = pinBit s.buf q

/-- What PhysicalRead puts on the bus (spec/20_memory.md R54). -/
def readEvents (s : State) : List PortEvent :=
  match s.nextWriteAnswer with
  | .ack => [.busWrite s.cfg.devAddr s.rm .ack, .busRead s.cfg.devAddr s.nextReadAnswer]
  | .nack => [.busWrite s.cfg.devAddr s.rm .nack]
  | .never => [.busWrite s.cfg.devAddr s.rm .never]

theorem ReadFrame.refl (s : State) : ReadFrame s s := by constructor <;> simp

theorem ReadFrame.trans {s t u : State} (h1 : ReadFrame s t) (h2 : ReadFrame t u) : ReadFrame s u := by
  constructor
  case buf =>
    intro hin q hq
    rw [h2.buf (by rw [h1.pd, h1.pu, h1.rm, hin]) q (by rw [h1.rm, hq]), h1.buf hin q hq]
  all_goals first
    | exact h2.cfg.trans h1.cfg | exact h2.wm.trans h1.wm | exact h2.wmu.trans h1.wmu
    | exact h2.rm.trans h1.rm | exact h2.pd.trans h1.pd | exact h2.pu.trans h1.pu
    | exact h2.wbuf.trans h1.wbuf | exact h2.phase.trans h1.phase | exact h2.resp.trans h1.resp
    | exact h2.now.trans h1.now | exact h2.posIn.trans h1.posIn | exact h2.host.trans h1.host
    | exact h2.bridge.trans h1.bridge

/-- A PhysicalRead is a read. -/
theorem physicalRead_frame (s : State) : ReadFrame s (physicalRead s).state := by
  rcases physicalRead_cases s with ⟨-, h⟩ | ⟨-, h⟩ | ⟨-, -, h⟩ | ⟨-, -, h⟩ | ⟨r, -, -, h⟩ <;> rw [h]
  case inr.inr.inr.inr =>
    rw [mergeByte_eq]
    constructor <;> simp [afterPrepare]
    intro _ q hq
    unfold takenIn
    split <;> simp [mergedByte, hq]
  all_goals constructor <;> simp [afterPrepare]

/-- A PhysicalRead writes NOW to TS, whatever comes back (R112). -/
theorem physicalRead_ts (s : State) : (physicalRead s).state.ts = s.now := by
  rcases physicalRead_cases s with ⟨-, h⟩ | ⟨-, h⟩ | ⟨-, -, h⟩ | ⟨-, -, h⟩ | ⟨r, -, -, h⟩ <;> rw [h] <;>
    simp [afterPrepare, mergeByte_eq]

/-- A PhysicalRead puts `readEvents` on the bus (R112). -/
theorem physicalRead_trace (s : State) : (physicalRead s).state.trace = s.trace ++ readEvents s := by
  rcases physicalRead_cases s with ⟨hw, h⟩ | ⟨hw, h⟩ | ⟨hw, hr, h⟩ | ⟨hw, hr, h⟩ | ⟨r, hw, hr, h⟩ <;> rw [h] <;>
    simp [afterPrepare, mergeByte_eq, readEvents, *]

/-- A PhysicalRead is stuck exactly if one of its transactions never returns. -/
theorem physicalRead_stuck (s : State) :
    (∃ t, physicalRead s = .done () t ∧ t.stuck = s.stuck) ∨
    (∃ t, physicalRead s = .stuck t ∧ t.stuck = true) := by
  rcases physicalRead_cases s with ⟨-, h⟩ | ⟨-, h⟩ | ⟨-, -, h⟩ | ⟨-, -, h⟩ | ⟨r, -, -, h⟩
  · exact .inr ⟨_, h, rfl⟩
  · exact .inl ⟨_, h, by simp [afterPrepare]⟩
  · exact .inr ⟨_, h, rfl⟩
  · exact .inl ⟨_, h, by simp [afterPrepare]⟩
  · exact .inl ⟨_, h, by simp [afterPrepare, mergeByte_eq]⟩

/-- Consuming a latch is a read: only an input pin's BUF bit changes (R113). -/
theorem consumeLatch_frame (p : Pin) (s : State) : ReadFrame s (consumeLatch p s) := by
  rw [consumeLatch_eq]
  constructor <;> simp
  intro hin q hq
  rw [pinBit_consumed]
  have hpd : (pinBit s.pd q || pinBit s.pu q) = false := by rw [← pinBit_or, hin, hq]
  simp only [Bool.or_eq_false_iff] at hpd
  by_cases hqp : q = p
  · subst hqp; simp [hpd.1, hpd.2]
  · simp [hqp]

/-- The ways ReadPin ends: from the cache, after a physical read, or stuck in one (R113). -/
theorem readPin_cases (p : Pin) (f : Bool) (s : State) :
    (readPin p f s = .done (pinValue p s) (consumeLatch p s)) ∨
    (∃ t, physicalRead s = .done () t ∧ t.stuck = s.stuck ∧
      readPin p f s = .done (pinValue p t) (consumeLatch p t)) ∨
    (∃ t, physicalRead s = .stuck t ∧ t.stuck = true ∧ readPin p f s = .stuck t) := by
  unfold readPin
  split
  · rcases physicalRead_stuck s with ⟨t, h, ht⟩ | ⟨t, h, ht⟩
    · exact .inr (.inl ⟨t, h, ht, by rw [h]; rfl⟩)
    · exact .inr (.inr ⟨t, h, ht, by rw [h]; rfl⟩)
  · exact .inl rfl

/-- ReadPin is a read. -/
theorem readPin_frame (p : Pin) (f : Bool) (s : State) : ReadFrame s (readPin p f s).state := by
  have hp := physicalRead_frame s
  rcases readPin_cases p f s with h | ⟨t, ht, -, h⟩ | ⟨t, ht, -, h⟩ <;> rw [h]
  · exact consumeLatch_frame p s
  · rw [ht] at hp; exact hp.trans (consumeLatch_frame p t)
  · rw [ht] at hp; exact hp

/-- ReadPin either leaves the bus and TS alone or performs one PhysicalRead. -/
theorem readPin_bus (p : Pin) (f : Bool) (s : State) :
    ((readPin p f s).state.trace = s.trace ∧ (readPin p f s).state.ts = s.ts) ∨
    ((readPin p f s).state.trace = s.trace ++ readEvents s ∧ (readPin p f s).state.ts = s.now) := by
  have h1 := physicalRead_trace s
  have h2 := physicalRead_ts s
  rcases readPin_cases p f s with h | ⟨t, ht, -, h⟩ | ⟨t, ht, -, h⟩ <;> rw [h]
  · exact .inl (by simp [consumeLatch_eq])
  · rw [ht] at h1 h2; exact .inr (by simpa [consumeLatch_eq] using ⟨h1, h2⟩)
  · rw [ht] at h1 h2; exact .inr ⟨h1, h2⟩

/-- The loop of RDA is a read that leaves the bus and TS alone. -/
theorem readPins_frame (l : List Pin) (d : Byte) (s : State) : ReadFrame s (readPins l d s).2 := by
  induction l generalizing d s with
  | nil => exact .refl s
  | cons i rest ih => exact (consumeLatch_frame i s).trans (ih _ _)

@[simp] theorem readPins_trace (l : List Pin) (d : Byte) (s : State) : (readPins l d s).2.trace = s.trace := by
  obtain ⟨b, hb⟩ := readPins_state l d s
  simp [hb]

@[simp] theorem readPins_ts (l : List Pin) (d : Byte) (s : State) : (readPins l d s).2.ts = s.ts := by
  obtain ⟨b, hb⟩ := readPins_state l d s
  simp [hb]

@[simp] theorem readPins_stuck (l : List Pin) (d : Byte) (s : State) : (readPins l d s).2.stuck = s.stuck := by
  obtain ⟨b, hb⟩ := readPins_state l d s
  simp [hb]

/-- ReadPin keeps the stuck flag, or is stuck. -/
theorem readPin_stuck (p : Pin) (f : Bool) (s : State) :
    (∃ v t, readPin p f s = .done v t ∧ t.stuck = s.stuck) ∨
    (∃ t, readPin p f s = .stuck t ∧ t.stuck = true) := by
  rcases readPin_cases p f s with h | ⟨u, -, hs, h⟩ | ⟨u, -, hs, h⟩
  · exact .inl ⟨_, _, h, by simp [consumeLatch_eq]⟩
  · exact .inl ⟨_, _, h, by simp [consumeLatch_eq, hs]⟩
  · exact .inr ⟨_, h, hs⟩

/-! ### The encoder poll -/

@[simp] theorem recordPhase_phase (p q : Pin) (v : Bool) (s : State) :
    pinBit (recordPhase p v s).phase q = if q = p then v else pinBit s.phase q := by
  unfold recordPhase
  split
  · simp
  · rename_i h
    simp only [ne_eq, Decidable.not_not] at h
    by_cases hq : q = p <;> simp [hq, h]

/-- The phase update writes PHASE and nothing else (spec/42_quadrature.md R143). -/
theorem recordPhase_eq (p : Pin) (v : Bool) (s : State) :
    recordPhase p v s = s.setPhase (recordPhase p v s).phase := by
  unfold recordPhase
  split <;> rfl

/-- The ways an encoder poll ends: both forced reads return, or one of them is stuck (R142). -/
theorem execEnc_cases (a b : Pin) (rev : Bool) (s : State) :
    (∃ curA s1 curB s2, readPin a true (emitDetach s) = .done curA s1 ∧ readPin b true s1 = .done curB s2 ∧
      s2.stuck = s.stuck ∧ ReadFrame (emitDetach s) s2 ∧
      execEnc a b rev s =
        commit (finishPoll a b rev (pinBit s.phase a) (pinBit s.phase b) curA curB s2)) ∨
    (∃ t, ReadFrame (emitDetach s) t ∧ t.stuck = true ∧ execEnc a b rev s = .next t ∧
      (readPin a true (emitDetach s) = .stuck t ∨
        ∃ curA s1, readPin a true (emitDetach s) = .done curA s1 ∧ readPin b true s1 = .stuck t)) := by
  have f1 := readPin_frame a true (emitDetach s)
  rcases readPin_stuck a true (emitDetach s) with ⟨curA, s1, h1, hs1⟩ | ⟨t, h1, ht⟩
  · rw [h1] at f1
    have f2 := readPin_frame b true s1
    rcases readPin_stuck b true s1 with ⟨curB, s2, h2, hs2⟩ | ⟨t, h2, ht⟩ <;> rw [h2] at f2
    · exact .inl ⟨curA, s1, curB, s2, h1, h2, hs2.trans hs1, f1.trans f2, by
        simp only [execEnc, h1, h2, Progress.done_andThen]⟩
    · exact .inr ⟨t, f1.trans f2, ht, by
        simp only [execEnc, h1, h2, Progress.done_andThen, Progress.stuck_andThen]; rfl,
        .inr ⟨curA, s1, h1, h2⟩⟩
  · rw [h1] at f1
    exact .inr ⟨t, f1, ht, by simp only [execEnc, h1, Progress.stuck_andThen]; rfl, .inl h1⟩

end Sys2Proof.Machine
end

