-- ==== Sys2Proof/Laws/PerInstr.lean ====
section
/-! SUPPORT. One family of statements made for each instruction: the word the encoder writes is well formed and
selects the row of the opcode map that has the instruction's own name (spec/30_encoding.md R76). -/

namespace Sys2Proof.Laws.EncodesOwnRow

open Sys2Proof

/-- The encoded word selects the row with the instruction's mnemonic, and no other row. -/
def Statement (i : Instr) : Prop :=
  (opcodeTable.filter (·.selects (encode i))).map (·.mnemonic) = [i.mnemonic]

theorem cfg (p : Pin) (dir : Direction) (lvl : Bool) : Statement (.cfg p dir lvl) := by
  unfold Statement
  cases dir <;> revert p lvl <;> decide

theorem act : Statement .act := by unfold Statement; decide

theorem rd (p : Pin) (force : Bool) : Statement (.rd p force) := by
  unfold Statement; revert p force; decide

theorem wr (p : Pin) (v : Bool) : Statement (.wr p v) := by
  unfold Statement; revert p v; decide

theorem wra (levels : Byte) : Statement (.wra levels) := by
  unfold Statement; revert levels; decide

theorem rda : Statement .rda := by unfold Statement; decide

theorem enc (a b : Pin) (rev : Bool) : Statement (.enc a b rev) := by
  unfold Statement; revert a b rev; decide

end Sys2Proof.Laws.EncodesOwnRow
end

