-- ==== Sys2Proof/Tests/Slice0.lean ====
section
/-! SUPPORT. The model's own tests.  Every expected value comes from spec/95_test_vectors.md (the vector is named) or
from the table named in the comment; the witnesses at the end meet the hypotheses of each statement of
Certificates/Slice0/Obligations.lean. -/

namespace Sys2Proof.Tests

open Sys2Proof Sys2Proof.Machine

/-! ### Decoding: words written out from spec/30_encoding.md R71 to R76 and 95_test_vectors.md 2.1 -/

/-- CFG: OP 0001, 0, PA 011, 00000, LVL 1, DIR 00. -/
theorem test_decode_cfg : decode 0b0001001100000100 = .instr (.cfg 3 .output true) := by decide
theorem test_decode_cfg_pull_up : decode 0b0001001100000110 = .instr (.cfg 3 .inputPullUp true) := by decide
theorem test_decode_cfg_unrecognized : decode 0x1307 = .instr (.cfg 3 .unrecognized true) := by decide
/-- ACT: OP 0010, twelve zeros. -/
theorem test_decode_act : decode 0b0010000000000000 = .instr .act := by decide
/-- RD: OP 0011, 0, PA 111, 0000000, F 1. -/
theorem test_decode_rd : decode 0b0011011100000001 = .instr (.rd 7 true) := by decide
/-- WR: OP 0100, 0, PA 000, 0000000, V 1. -/
theorem test_decode_wr : decode 0b0100000000000001 = .instr (.wr 0 true) := by decide
/-- WRA: OP 0101, 0000, LEVELS 01010101. -/
theorem test_decode_wra : decode 0b0101000001010101 = .instr (.wra 0x55) := by decide
/-- RDA: OP 0110, twelve zeros. -/
theorem test_decode_rda : decode 0b0110000000000000 = .instr .rda := by decide
/-- ENC: OP 0111, 0, PA 010, 0, PB 101, 000, REV 1. -/
theorem test_decode_enc : decode 0b0111001001010001 = .instr (.enc 2 5 true) := by decide
/-- 95_test_vectors.md P1: ENC 0, 1, 0 is 0x7010. -/
theorem test_encode_enc : encode (.enc 0 1 false) = 0x7010 := by decide

theorem test_decode_reserved_opcode :
    decode 0x0FFF = .illegal .reservedOpcode ∧ decode 0x8000 = .illegal .reservedOpcode ∧
    decode 0xFFFF = .illegal .reservedOpcode := by decide

/-- The words of 95_test_vectors.md P1, P2 and P4 as their assembler lines. -/
theorem test_assemble_program_words :
    assemble (.cfgInPu 1) = 0x1102 ∧ assemble (.cfgInPd 4) = 0x1401 ∧ assemble (.cfgOut 0 true) = 0x1004 ∧
    assemble (.rd 4 true) = 0x3401 ∧ assemble (.enc 0 1 true) = 0x7011 ∧ assemble (.word 0x8000) = 0x8000 := by
  decide

/-- R85: no start level is low, no pull is pull-down, no forceNow is false, and a bridge call is no command. -/
theorem test_expand_defaults :
    SourceCall.expand (.configureOutput 3 none) 7 = .command 0x1300 0 7 ∧
    SourceCall.expand (.configureInput 4 .none) 0 = .command 0x1401 0 0 ∧
    SourceCall.expand (.digitalRead 3 none) 0 = .command 0x3300 0 0 ∧
    SourceCall.expand (.readEncoderValue 0 1 9 false) 0 = .command 0x7010 9 0 ∧
    SourceCall.expand (.attach 4 1 none) 0 = .attach 4 1 none ∧
    SourceCall.expand .detach 0 = .detach := by decide

/-! ### The check of WellFormed: one ill-formed word for each reserved opcode range and each format's bits -/

theorem test_wellFormed_refuses :
    wellFormedWord 0x0000 = false ∧ wellFormedWord 0x8000 = false ∧ wellFormedWord 0x1308 = false ∧
    wellFormedWord 0x1B04 = false ∧ wellFormedWord 0x2001 = false ∧ wellFormedWord 0x3002 = false ∧
    wellFormedWord 0x4004 = false ∧ wellFormedWord 0x5100 = false ∧ wellFormedWord 0x6080 = false ∧
    wellFormedWord 0x7090 = false ∧ wellFormedWord 0x7012 = false := by decide

theorem test_wellFormed_accepts :
    wellFormedWord 0x1304 = true ∧ wellFormedWord 0x2000 = true ∧ wellFormedWord 0x3701 = true ∧
    wellFormedWord 0x4001 = true ∧ wellFormedWord 0x50FF = true ∧ wellFormedWord 0x6000 = true ∧
    wellFormedWord 0x7770 = true := by decide

/-! ### Small states -/

/-- The next state, if there is one. -/
def after (o : Host.Outcome State Fault Refusal) : Option State :=
  match o with
  | .next t => some t
  | .fault _ => none
  | .refused _ => none

/-- The bus answers settled for a test. -/
def answering (w : List WriteAnswer) (r : List ReadAnswer) (s : State) : State :=
  { s with writeAnswers := w, readAnswers := r }

/-- A state at time `n`. -/
def at' (n : Nat) (s : State) : State := { s with now := n }

/-- The start state of 95_test_vectors.md 2.4 and 2.7. -/
def readStart : State :=
  { State.reset with wm := 0x08, wmu := 0x08, rm := 0x11, pd := 0x10, pu := 0x01, buf := 0x09, wbuf := 0x09 }

/-- The start state of 95_test_vectors.md 2.5. -/
def writeStart : State := { State.reset with wm := 0x08, wmu := 0x0A, rm := 0x02, pu := 0x02, wbuf := 0x08 }

/-- The table setup of 95_test_vectors.md 2.8: pins 0 and 1 outputs, both physical reads answered. -/
def tableSetup (phase wbuf : Byte) (pos : Nat) : State :=
  answering [.ack, .ack] [.byte 0xFF, .byte 0xFF]
    { State.reset with wm := 0x03, wmu := 0x03, phase := phase, wbuf := wbuf, posIn := pos }

/-- Pins 0 and 1 pull-up inputs, as in vectors E-3 to E-7. -/
def encoderInputs (buf phase : Byte) : State :=
  { State.reset with rm := 0x03, pu := 0x03, buf := buf, phase := phase }

/-! ### One step of each command -/

/-- Vector C-2. -/
theorem test_cfg_pull_down_keeps_wmu :
    (after (exec (.cfg 3 .inputPullDown false) { State.reset with wm := 0x08, wmu := 0x08 })).map
      (fun t => (t.wm, t.wmu, t.rm, t.pd, t.pu)) = some (0x00, 0x08, 0x08, 0x08, 0x00) := by decide

/-- Vector C-5. -/
theorem test_cfg_unrecognized :
    (after (exec (.cfg 3 .unrecognized true) { State.reset with wm := 0x08 })).map
      (fun t => (t.wm, t.resp.status)) = some (0x08, .invalidConfiguration) := by decide

/-- Vector A-5. -/
theorem test_act_seeds :
    (after (exec .act (at' 77 (answering [.ack] []
      { State.reset with rm := 0x03, pu := 0x03, buf := 0x01, wbuf := 0x5A, phase := 0x02 })))).map
      (fun t => (t.buf, t.wbuf, t.ts, t.phase, t.trace)) =
    some (0x03, 0x03, 77, 0x02, [.busWrite 0 0x03 .ack]) := by decide

/-- Vector A-3. -/
theorem test_act_nack :
    (after (exec .act (at' 9 (answering [.nack] []
      { State.reset with wm := 0x08, wmu := 0x08, rm := 0x10, pd := 0x10, ts := 3 })))).map
      (fun t => (t.buf, t.wbuf, t.ts, t.resp.status)) = some (0x00, 0x00, 3, .deviceUnreachable) := by decide

/-- Vector R-8: a forced read of an unconfigured pin merges and latches pin 0. -/
theorem test_rd_forced_merges :
    (after (exec (.rd 7 true) (at' 30 (answering [.ack] [.byte 0x00] readStart)))).map
      (fun t => (t.resp.data, t.buf, t.ts)) = some (0x00, 0x08, 30) := by decide

/-- Vectors R-14 and R-15: the window across a rollover of the timestamp. -/
theorem test_rd_window_rollover :
    let s := answering [.ack] [.byte 0x10] { State.reset with rm := 0x10, pd := 0x10, ts := 0xFFFFFFF0 }
    (after (exec (.rd 4 false) (at' 0x50 s))).map (fun t => (t.resp.data, t.ts)) = some (0x00, 0xFFFFFFF0) ∧
    (after (exec (.rd 4 false) (at' 0x60 s))).map (fun t => (t.resp.data, t.ts, t.buf)) =
      some (0x01, 0x60, 0x00) := by decide

/-- Vector W-3 from the state after W-2: bit 1 of the byte sent comes from WMU. -/
theorem test_wr_input_pin_masked :
    (after (exec (.wr 1 false) (answering [.ack] [] writeStart))).map (fun t => (t.wbuf, t.trace)) =
      some (0x08, [.busWrite 0 0x0A .ack]) := by decide

/-- Vector W-5. -/
theorem test_wr_nack_keeps_wbuf :
    (after (exec (.wr 3 false) (answering [.nack] [] writeStart))).map
      (fun t => (t.wbuf, t.trace, t.resp.status)) =
      some (0x00, [.busWrite 0 0x02 .nack], .deviceUnreachable) := by decide

/-- Vector L-2. -/
theorem test_wra_falls_back_to_wmu :
    (after (exec (.wra 0xFF) (answering [.ack] [] { State.reset with wm := 0x0F, wmu := 0x30 }))).map
      (fun t => (t.wbuf, t.trace)) = some (0xFF, [.busWrite 0 0x3F .ack]) := by decide

/-- Vector L-4. -/
theorem test_wra_nack :
    (after (exec (.wra 0xA5) (answering [.nack] [] { State.reset with wm := 0xFF }))).map
      (fun t => (t.wbuf, t.resp.status)) = some (0xA5, .deviceUnreachable) := by decide

/-- Vector D-2. -/
theorem test_rda_merges :
    (after (exec .rda (at' 101 (answering [.ack] [.byte 0x10] readStart)))).map
      (fun t => (t.resp.data, t.buf, t.ts)) = some (0x18, 0x09, 101) := by decide

/-- Vector D-6: past the window RDA reads although pins are latched. -/
theorem test_rda_reads_with_latches :
    (after (exec .rda (at' 200 (answering [.ack] [.byte 0x01] { readStart with buf := 0x18 })))).map
      (fun t => (t.resp.data, t.buf, t.ts)) = some (0x18, 0x09, 200) := by decide

/-- Vector E-1: the position wraps. -/
theorem test_enc_position_wraps :
    (after (exec (.enc 0 1 false) (tableSetup 0x00 0x01 0x7FFFFFFF))).map
      (fun t => (t.resp.delta, t.resp.changed, t.resp.posOut, t.phase)) =
      some (0b01, true, 0x80000000, 0x01) := by decide

/-- Vector E-7: the merge of pin A's read latches pin B. -/
theorem test_enc_merge_latches_other_pin :
    (after (exec (.enc 0 1 false) (answering [.ack] [.byte 0xFD] (encoderInputs 0x03 0x03)))).map
      (fun t => (t.resp.delta, t.resp.posOut, t.buf, t.phase, t.trace)) =
      some (0b11, 0xFFFFFFFF, 0x03, 0x01,
        [.detach, .busWrite 0 0x03 .ack, .busRead 0 (.byte 0xFD), .reattach]) := by decide

/-- P3 step 15: an illegal word through the step. -/
theorem test_step_illegal_word :
    (after (step (State.reset.withFetchWord 16 0x8000))).map (fun t => (t.resp.status, t.trace)) =
      some (.illegalCommand, []) := by decide

/-- A placed word runs as the first instruction after reset, even where the bus answer is free. -/
theorem test_step_runs_placed_word :
    (after (step (State.reset.withFetchWord 16 0x4001))).isSome = true := by decide

/-! ### Witnesses: the hypotheses of the statements can be met -/

/-- A command presented to a block. -/
def presented (w : CmdWord) (s : State) : State := { s with host := [.command w 5 40] }

theorem witness_EncodeOfDecode : decode 0x1304 = .instr (.cfg 3 .output true) := by decide

theorem witness_StepRunsDecodedCommand :
    (presented 0x6000 readStart).stuck = false ∧
    (presented 0x6000 readStart).host = .command 0x6000 5 40 :: [] ∧ decode 0x6000 = .instr .rda := by decide

theorem witness_PlacedWordRunsNext :
    State.reset.stuck = false ∧ State.reset.now < 2 ^ State.reset.cfg.tsW ∧
    State.reset.posIn < 2 ^ State.reset.cfg.posW ∧ decodeTableWord 16 0x4001 = some (.wr 0 true) := by decide

/-- Both ranges of reserved opcodes, at their ends. -/
theorem witness_ReservedOpcodeOnlyAnswers :
    (presented 0x0FFF readStart).stuck = false ∧
    (presented 0x0FFF readStart).host = .command 0x0FFF 5 40 :: [] ∧ ((0x0FFF : CmdWord) >>> 12).toNat = 0 ∧
    8 ≤ ((0x8000 : CmdWord) >>> 12).toNat ∧ 8 ≤ ((0xFFFF : CmdWord) >>> 12).toNat := by decide

/-- The lowest and the highest defined opcode, with a reserved bit set. -/
theorem witness_ReservedBitOnlyAnswers :
    (presented 0x1308 readStart).stuck = false ∧
    (presented 0x1308 readStart).host = .command 0x1308 5 40 :: [] ∧ ((0x1308 : CmdWord) >>> 12).toNat = 1 ∧
    (0x1308 : CmdWord) &&& 0x08F8 ≠ 0 ∧ ((0x7090 : CmdWord) >>> 12).toNat = 7 ∧
    (0x7090 : CmdWord) &&& 0x088E ≠ 0 := by decide

theorem witness_CfgWritesDirectionRow :
    decode 0x1002 = .instr (.cfg 0 .inputPullUp false) ∧ decode 0x1707 = .instr (.cfg 7 .unrecognized true) := by
  decide

/-- All four clauses. -/
theorem witness_ActBringsUp :
    State.reset.wm ||| State.reset.rm = 0#8 ∧ readStart.wm ||| readStart.rm ≠ 0#8 ∧
    (answering [.ack] [] readStart).nextWriteAnswer = .ack ∧
    (answering [.nack] [] readStart).nextWriteAnswer = .nack ∧
    (answering [.never] [] readStart).nextWriteAnswer = .never := by decide

/-- W-1: the byte 0x02 for WBUF 0x00; the three answers as for ACT. -/
theorem witness_WrWritesBitAndTransmits :
    (∀ q : Pin, pinBit 0x00 q = if q = 3 then false else pinBit writeStart.wbuf q) ∧
    (∀ q : Pin, pinBit 0x02 q = if pinBit writeStart.wm q then pinBit 0x00 q else pinBit writeStart.wmu q) ∧
    (answering [.ack] [] writeStart).nextWriteAnswer = .ack ∧
    (answering [.nack] [] writeStart).nextWriteAnswer = .nack ∧
    (answering [.never] [] writeStart).nextWriteAnswer = .never := by decide

theorem witness_WraWritesLevelsAndTransmits :
    (∀ q : Pin, pinBit 0x0A q = if pinBit writeStart.wm q then pinBit 0xFF q else pinBit writeStart.wmu q) ∧
    (answering [.ack] [] writeStart).nextWriteAnswer = .ack ∧
    (answering [.nack] [] writeStart).nextWriteAnswer = .nack ∧
    (answering [.never] [] writeStart).nextWriteAnswer = .never := by decide

/-- The boundary of the window: 100 has not expired, 101 has. -/
theorem witness_WindowComparesModularDifference :
    (at' 100 readStart).now < 2 ^ readStart.cfg.tsW ∧ readStart.ts < 2 ^ readStart.cfg.tsW ∧
    windowExpired (at' 100 readStart) = false ∧ windowExpired (at' 101 readStart) = true := by decide

theorem witness_LatchedIffInputAwayFromDefault :
    readStart.pcrInv ∧ latched 0 readStart = false ∧ latched 0 { readStart with buf := 0x08 } = true := by decide

/-- Both ways to be served from the cache. -/
theorem witness_RdServedFromCache :
    latched 0 { readStart with buf := 0x08 } = true ∧
    ((false = false) ∧ windowExpired (at' 100 readStart) = false) := by decide

/-- Forced, and unforced past the window. -/
theorem witness_RdPhysicalReadMerges :
    latched 4 readStart = false ∧ windowExpired (at' 101 readStart) = true ∧
    (answering [.ack] [.byte 0xFF] readStart).nextWriteAnswer = .ack ∧
    (answering [.ack] [.byte 0xFF] readStart).nextReadAnswer = .byte 0xFF := by decide

theorem witness_RdFailedReadKeepsCache :
    latched 0 readStart = false ∧ windowExpired (at' 101 readStart) = true ∧
    (answering [.nack] [] readStart).nextWriteAnswer = .nack ∧
    (answering [.ack] [.empty] readStart).nextWriteAnswer = .ack ∧
    (answering [.ack] [.empty] readStart).nextReadAnswer = .empty := by decide

/-- R-4: the byte 0xFF makes BUF 0x19. -/
theorem witness_PhysicalReadProcedure :
    (answering [.nack] [] readStart).nextWriteAnswer = .nack ∧
    (answering [.ack] [.empty] readStart).nextWriteAnswer = .ack ∧
    (answering [.ack] [.empty] readStart).nextReadAnswer = .empty ∧
    (answering [.ack] [.byte 0xFF] readStart).nextReadAnswer = .byte 0xFF ∧
    (∀ q : Pin, pinBit 0x19 q = levelAfterRead 0xFF readStart q) := by decide

theorem witness_RdaServedFromCache :
    readStart.pd &&& readStart.pu = 0#8 ∧ windowExpired (at' 50 readStart) = false := by decide

/-- D-2: the byte 0x10 makes BUF 0x18. -/
theorem witness_RdaPhysicalReadMerges :
    readStart.pd &&& readStart.pu = 0#8 ∧ windowExpired (at' 101 readStart) = true ∧
    (answering [.ack] [.byte 0x10] readStart).nextWriteAnswer = .ack ∧
    (answering [.ack] [.byte 0x10] readStart).nextReadAnswer = .byte 0x10 ∧
    (∀ q : Pin, pinBit 0x18 q = levelAfterRead 0x10 readStart q) := by decide

theorem witness_RdaFailedReadKeepsCache :
    readStart.pd &&& readStart.pu = 0#8 ∧ windowExpired (at' 101 readStart) = true ∧
    (answering [.nack] [] readStart).nextWriteAnswer = .nack ∧
    (answering [.ack] [.empty] readStart).nextWriteAnswer = .ack ∧
    (answering [.ack] [.empty] readStart).nextReadAnswer = .empty := by decide

/-- Both clauses, from a state with both input pins latched. -/
theorem witness_ReadConsumesLatch :
    readStart.pd &&& readStart.pu = 0#8 ∧
    (∃ t, exec (.rd 4 false) { readStart with buf := 0x18 } = .next t ∧ t.stuck = false) ∧
    (∃ t, exec .rda { readStart with buf := 0x18 } = .next t ∧ t.stuck = false) :=
  ⟨by decide, ⟨_, rfl, by decide⟩, ⟨_, rfl, by decide⟩⟩

/-- X2 step 4: pin 2 pull-up, the bus shows it low. -/
theorem witness_EdgeReportedOnce :
    let s := at' 120 (answering [.ack] [.byte 0xFB] { State.reset with rm := 0x04, pu := 0x04, buf := 0x04 })
    s.pcrInv ∧ pinBit s.rm 2 = true ∧ ∃ t, exec (.rd 2 false) s = .next t ∧ t.stuck = false ∧
      t.resp.data = rdData (!pinBit s.pu 2) ∧ windowExpired { t with now := 150 } = false :=
  ⟨by decide, by decide, _, rfl, by decide, by decide, by decide⟩

theorem witness_OutputPinReadsBackWriteBuffer :
    pinBit readStart.wm 3 = true ∧
    (∃ t, exec (.rd 3 false) readStart = .next t ∧ t.stuck = false) ∧
    (∃ t, exec .rda readStart = .next t ∧ t.stuck = false) :=
  ⟨by decide, ⟨_, rfl, by decide⟩, ⟨_, rfl, by decide⟩⟩

/-- X6: reads at 150 and at 250, exactly one window apart. -/
theorem witness_DebounceBoundsPhysicalReads :
    let s := at' 150 (answering [.ack] [.byte 0x00] { State.reset with rm := 0x10, pd := 0x10 })
    250 < 2 ^ s.cfg.tsW ∧ s.now < 2 ^ s.cfg.tsW ∧
    (250 + 2 ^ s.cfg.tsW - s.now) % 2 ^ s.cfg.tsW ≤ s.cfg.debounceMs ∧
    ∃ t u, exec (.rd 4 false) s = .next t ∧ exec (.rd 4 false) { t with now := 250 } = .next u :=
  ⟨by decide, by decide, by decide, _, _, rfl, rfl⟩

/-- The read at the last moment of the window. -/
theorem witness_WriteThenReadReturnsValue :
    pinBit writeStart.wm 3 = true ∧
    ∃ t, exec (.wr 3 false) (answering [.nack] [] writeStart) = .next t ∧ t.stuck = false ∧
      windowExpired { t with now := 100 } = false :=
  ⟨by decide, _, rfl, by decide, by decide⟩

/-- X4, with the read past the window. -/
theorem witness_BulkWriteThenReadRoundTrips :
    let s := answering [.ack, .ack] [.byte 0xAA] { State.reset with wm := 0xFF }
    s.wm = 0xFF ∧ ∃ t u, exec (.wra 0x55) s = .next t ∧ exec .rda { t with now := 101 } = .next u ∧
      u.stuck = false :=
  ⟨by decide, _, _, rfl, rfl, by decide⟩

theorem witness_PullUpPinLatchedBeforeActivate : pinBit State.reset.buf 1 = false := by decide

/-- Both pins outputs, levels 1 and 0, the table setup of 2.8. -/
theorem witness_EncDecodesForcedReads :
    let s := tableSetup 0x00 0x01 0
    ∃ s1 s2, readPin 0 true { s with trace := s.trace ++ [.detach], bridge := s.bridge.detach } = .done true s1 ∧
      readPin 1 true s1 = .done false s2 :=
  ⟨_, _, rfl, rfl⟩

/-- E-6's start: pin 0 twice, with both reads answered. -/
theorem witness_EncIsTwoForcedReads :
    let s := answering [.ack, .ack] [.byte 0xFF, .byte 0xFE]
      { State.reset with rm := 0x01, pu := 0x01, buf := 0x01, phase := 0x01 }
    ∃ s1 s2, exec (.rd 0 true) { s with trace := s.trace ++ [.detach], bridge := s.bridge.detach } = .next s1 ∧
      s1.stuck = false ∧ exec (.rd 0 true) s1 = .next s2 ∧ s2.stuck = false ∧
      pinBit s1.resp.data 0 = true ∧ pinBit s2.resp.data 0 = false :=
  ⟨_, _, rfl, by decide, rfl, by decide, by decide, by decide⟩

/-- E-3. -/
theorem witness_EncOfLatchedPinsUsesNoBus :
    (0 : Pin) ≠ 1 ∧ (encoderInputs 0x00 0x03).pcrInv ∧ latched 0 (encoderInputs 0x00 0x03) = true ∧
    latched 1 (encoderInputs 0x00 0x03) = true := by decide

/-- E-4: two EMPTY reads. -/
theorem witness_EncCompletesWhenBusReturns :
    let s := answering [.ack, .nack] [.empty, .empty] (encoderInputs 0x03 0x03)
    s.stuck = false ∧ s.writeAnswers = .ack :: .nack :: [] ∧ s.readAnswers = .empty :: .empty :: [] ∧
    WriteAnswer.ack ≠ .never ∧ WriteAnswer.nack ≠ .never ∧ ReadAnswer.empty ≠ .never := by decide

theorem witness_ReversalNegatesDelta :
    ∃ t u, exec (.enc 0 1 false) (tableSetup 0x03 0x01 0) = .next t ∧
      exec (.enc 0 1 true) (tableSetup 0x03 0x01 0) = .next u ∧ t.stuck = false ∧ t.resp.delta = 0b11 :=
  ⟨_, _, rfl, rfl, by decide, by decide⟩

/-- E-2: the position wraps downwards. -/
theorem witness_PositionFollowsDelta :
    let s := tableSetup 0x03 0x01 0x80000000
    0 < s.cfg.posW ∧ s.posIn < 2 ^ s.cfg.posW ∧
    ∃ t, exec (.enc 0 1 false) s = .next t ∧ t.stuck = false ∧ t.resp.posOut = 0x7FFFFFFF :=
  ⟨by decide, by decide, _, rfl, by decide, by decide⟩

/-- A completed command of every kind: for StatusFollowsCause, ResponseFieldsPerCommand,
OnlyEncEmitsBracketedEvents, BusTransactionsPerCommand, OnlyEncWritesPhase and WritersOfWbufAndTimestamp. -/
theorem witness_completed_commands :
    (∃ t, exec (.cfg 3 .unrecognized false) readStart = .next t ∧ t.stuck = false) ∧
    (∃ t, exec .act (answering [.nack] [] readStart) = .next t ∧ t.stuck = false) ∧
    (∃ t, exec (.rd 0 true) (answering [.ack] [.empty] readStart) = .next t ∧ t.stuck = false) ∧
    (∃ t, exec (.wr 3 true) (answering [.nack] [] readStart) = .next t ∧ t.stuck = false) ∧
    (∃ t, exec (.wra 0x55) (answering [.ack] [] readStart) = .next t ∧ t.stuck = false) ∧
    (∃ t, exec .rda readStart = .next t ∧ t.stuck = false) ∧
    (∃ t, exec (.enc 0 1 false) (tableSetup 0x00 0x01 0) = .next t ∧ t.stuck = false) :=
  ⟨⟨_, rfl, by decide⟩, ⟨_, rfl, by decide⟩, ⟨_, rfl, by decide⟩, ⟨_, rfl, by decide⟩, ⟨_, rfl, by decide⟩,
    ⟨_, rfl, by decide⟩, ⟨_, rfl, by decide⟩⟩

theorem witness_NackReportsDeviceUnreachable :
    (answering [.nack] [] readStart).nextWriteAnswer = .nack ∧ readStart.wm ||| readStart.rm ≠ 0#8 := by decide

/-- A bridge with a callback attached, and one of each host action. -/
def attachment : Attachment := ⟨4, 1, .fallingEdge⟩

def bridgeState (attached : Bool) (a : HostAction) : State :=
  { State.reset with host := [a], bridge := ⟨attached, some attachment, []⟩ }

/-- An attach that names no edge kind registers for a falling edge (R171). -/
theorem test_step_attach_default_edge :
    (after (step (bridgeState false (.attach 7 2 none)))).map (fun t => (t.bridge.attached, t.bridge.last)) =
      some (true, some ⟨7, 2, .fallingEdge⟩) := by decide

/-- All six clauses. -/
theorem witness_BridgeCallsFollowContract :
    (bridgeState false (.attach 4 1 (some .fallingEdge))).host =
      .attach attachment.line attachment.callback (some attachment.edge) :: [] ∧
    (bridgeState false (.attach 4 1 none)).host = .attach attachment.line attachment.callback none :: [] ∧
    attachment.edge = .fallingEdge ∧
    (bridgeState true .detach).host = .detach :: [] ∧ (bridgeState true .detach).bridge.attached = true ∧
    (bridgeState true .detach).bridge.last = some attachment ∧
    (bridgeState false .detach).bridge.attached = false ∧
    (bridgeState false .reattach).host = .reattach :: [] ∧
    (bridgeState false .reattach).bridge.last = some attachment ∧ State.reset.bridge.last = none := by decide

/-- A poll after the host detached its callback. -/
theorem witness_EncReattachesUnconditionally :
    let s := { encoderInputs 0x00 0x03 with bridge := ⟨false, some attachment, []⟩ }
    ∃ t, exec (.enc 0 1 false) s = .next t ∧ t.stuck = false ∧ t.bridge.attached = true :=
  ⟨_, rfl, by decide, by decide⟩

/-- Past the window with nothing latched: a write that never returns, and a read that never does. -/
def neverWrites : State := answering [.never] [] (at' 101 readStart)
def neverReads : State := answering [.ack] [.never] (at' 101 readStart)

/-- Every arm but CFG, which has no bus transaction, and both ways a read never returns. -/
theorem witness_BusThatNeverReturnsSticks :
    neverWrites.nextWriteAnswer = .never ∧ neverWrites.wm ||| neverWrites.rm ≠ 0 ∧
    firstReadNeverReturns neverWrites ∧ latched 0 neverWrites = false ∧ windowExpired neverWrites = true ∧
    firstReadNeverReturns neverReads ∧ latched 0 neverReads = false ∧ windowExpired neverReads = true := by decide

/-- Every premise of both ways. -/
theorem witness_ReadThatNeverReturnsSticks :
    latched 0 neverWrites = false ∧ windowExpired neverWrites = true ∧ neverWrites.nextWriteAnswer = .never ∧
    latched 0 neverReads = false ∧ windowExpired neverReads = true ∧ neverReads.nextWriteAnswer = .ack ∧
    neverReads.nextReadAnswer = .never := by decide

/-- Stuck in pin A's read; and pin A latched, its latch consumed, then stuck in pin B's write. -/
theorem witness_EncSticksInEitherRead :
    let detached := fun s : State => { s with trace := s.trace ++ [.detach], bridge := s.bridge.detach }
    let s := answering [.never] [] (encoderInputs 0x02 0x03)
    neverReads.stuck = false ∧ s.stuck = false ∧
    (∃ s1, exec (.rd 0 true) (detached neverReads) = .next s1 ∧ s1.stuck = true) ∧
    (∃ s1 s2, exec (.rd 0 true) (detached s) = .next s1 ∧ s1.stuck = false ∧ s1.buf = 0x03 ∧
      exec (.rd 1 true) s1 = .next s2 ∧ s2.stuck = true) :=
  ⟨by decide, by decide, ⟨_, rfl, by decide⟩, _, _, rfl, by decide, by decide, rfl, by decide⟩

theorem witness_IdleStepKeepsState : readStart.host = [] := by decide

theorem witness_StuckBlockNeverChanges :
    ({ bridgeState true .detach with stuck := true } : State).stuck = true ∧
    ∃ t, step { bridgeState true .detach with stuck := true } = .next t :=
  ⟨rfl, _, rfl⟩

/-- A state of a run, and its step. -/
theorem witness_StepKeepsStateInv :
    (presented 0x7010 (encoderInputs 0x00 0x03)).Inv ∧
    ∃ t, step (presented 0x7010 (encoderInputs 0x00 0x03)) = .next t :=
  ⟨by decide, _, rfl⟩

theorem witness_StepKeepsParameters : ∃ t, step (presented 0x2000 readStart) = .next t := ⟨_, rfl⟩

theorem witness_OnlyCfgWritesMasks :
    (∃ t, exec (.wr 3 true) readStart = .next t) ∧ (Instr.wr 3 true).mnemonic ≠ "CFG" :=
  ⟨⟨_, rfl⟩, by decide⟩

theorem witness_OnlyActWritesNonInputBufBits :
    readStart.pcrInv ∧ Instr.rda ≠ .act ∧ (∃ t, exec .rda readStart = .next t) ∧ pinBit readStart.rm 3 = false :=
  ⟨by decide, by decide, ⟨_, rfl⟩, by decide⟩

theorem witness_PosInIgnoredByOtherCommands :
    Instr.rda.mnemonic ≠ "ENC" ∧ ∃ t, exec .rda readStart = .next t :=
  ⟨by decide, _, rfl⟩

end Sys2Proof.Tests
end

namespace Sys2Proof.Machine

/-! ### The comparator of the debounce window (R34) -/

/-- R34's modular difference as arithmetic on numbers: adding the modulus first keeps the subtraction from
truncating when the clock has wrapped past the timestamp. -/
theorem elapsed_eq_sub_mod {w now ts : Nat} (hnow : now < 2 ^ w) (hts : ts < 2 ^ w) :
    elapsed w now ts = (now + 2 ^ w - ts) % 2 ^ w := by
  have hcomm : 2 ^ w - ts + now = now + 2 ^ w - ts := by omega
  rw [elapsed, BitVec.toNat_sub, BitVec.toNat_ofNat, BitVec.toNat_ofNat, Nat.mod_eq_of_lt hnow,
    Nat.mod_eq_of_lt hts, hcomm]

/-- The comparator is strict: a difference of exactly `DEBOUNCE_MS` is still inside the window (R34). -/
theorem windowExpired_iff (s : State) :
    windowExpired s = true ↔ s.cfg.debounceMs < elapsed s.cfg.tsW s.now s.ts :=
  decide_eq_true_iff

/-- Settles O16: the comparator is strict on `elapsed`, and `elapsed` is the difference modulo `2 ^ TS_W`. -/
theorem windowComparesModularDifference : Obligations.WindowComparesModularDifference := by
  intro s hnow hts
  rw [windowExpired_iff, elapsed_eq_sub_mod hnow hts]

end Sys2Proof.Machine

namespace Sys2Proof

/-! ### The field DIR (R101) -/

/-- The DIR code the encoder writes for a direction is the one the decoder reads as it. -/
theorem dirBits_dirField (w : CmdWord) : dirBits (dirField w) = w.extractLsb' 0 2 := by
  have hcode : (dirBits (dirField w)).getLsbD 0 = w.getLsbD 0 ∧
      (dirBits (dirField w)).getLsbD 1 = w.getLsbD 1 := by
    rw [dirField]
    cases w.getLsbD 1 <;> cases w.getLsbD 0 <;> decide
  obtain ⟨hlow, hhigh⟩ := hcode
  apply BitVec.eq_of_getLsbD_eq
  intro i hi
  obtain rfl | rfl : i = 0 ∨ i = 1 := by omega
  · rw [hlow]; simp
  · rw [hhigh]; simp

/-- A word decodes to an instruction just when its format names it and its reserved bits are 0 (R80). -/
theorem decode_eq_instr_iff {w : CmdWord} {i : Instr} :
    decode w = .instr i ↔ ∃ reserved, formatOf w = some (reserved, i) ∧ w &&& reserved = 0 := by
  unfold decode
  cases formatOf w with
  | none => simp
  | some f =>
    obtain ⟨reserved, j⟩ := f
    by_cases h : w &&& reserved = 0#16 <;> simp [h]

/-- Only format P of opcode 1 names CFG, and it takes the three operands from their fields (R72). -/
theorem operands_of_decode_cfg {w : CmdWord} {p : Pin} {dir : Direction} {lvl : Bool}
    (h : decode w = .instr (.cfg p dir lvl)) : paField w = p ∧ dirField w = dir ∧ lvlField w = lvl := by
  obtain ⟨reserved, hf, -⟩ := decode_eq_instr_iff.1 h
  unfold formatOf at hf
  split_ifs at hf
  · simp only [Option.some.injEq, Prod.mk.injEq, Instr.cfg.injEq] at hf
    exact hf.2
  all_goals simp at hf

end Sys2Proof

namespace Sys2Proof.Machine

/-! ### Raising a status writes no mask (R161) -/

section
variable (st : Status) (s : State)

@[simp] theorem raise_wm : (raise st s).wm = s.wm := rfl
@[simp] theorem raise_wmu : (raise st s).wmu = s.wmu := rfl
@[simp] theorem raise_rm : (raise st s).rm = s.rm := rfl
@[simp] theorem raise_pd : (raise st s).pd = s.pd := rfl
@[simp] theorem raise_pu : (raise st s).pu = s.pu := rfl

end

/-! ### CFG (R100, R101) -/

section
variable (p : Pin) (isOutput pullDown pullUp : Bool) (wmu : Byte) (s : State)

@[simp] theorem configurePin_wm :
    (configurePin p isOutput pullDown pullUp wmu s).wm = setPinBit s.wm p isOutput := rfl
@[simp] theorem configurePin_wmu : (configurePin p isOutput pullDown pullUp wmu s).wmu = wmu := rfl
@[simp] theorem configurePin_rm :
    (configurePin p isOutput pullDown pullUp wmu s).rm = setPinBit s.rm p (!isOutput) := rfl
@[simp] theorem configurePin_pd :
    (configurePin p isOutput pullDown pullUp wmu s).pd = setPinBit s.pd p pullDown := rfl
@[simp] theorem configurePin_pu :
    (configurePin p isOutput pullDown pullUp wmu s).pu = setPinBit s.pu p pullUp := rfl

end

/-- Settles O12: the DIR code of a word is that of the direction its DIR field reads as, and each direction's arm
writes its row through `setPinBit`, which reaches no other pin. -/
theorem cfgWritesDirectionRow : Obligations.CfgWritesDirectionRow := by
  intro p dir lvl s
  refine ⟨fun w hw => ?_, ?_⟩
  · obtain ⟨-, hdir, -⟩ := operands_of_decode_cfg hw
    rw [← dirBits_dirField, hdir]
    cases dir <;> rfl
  · cases dir with
    | output =>
      exact ⟨raise .ok (configurePin p true false false (setPinBit s.wmu p lvl) s), rfl, rfl,
        fun q hq => by simp [hq], by simp⟩
    | inputPullDown =>
      exact ⟨raise .ok (configurePin p false true false s.wmu s), rfl, rfl,
        fun q hq => by simp [hq], by simp⟩
    | inputPullUp =>
      exact ⟨raise .ok (configurePin p false false true s.wmu s), rfl, rfl,
        fun q hq => by simp [hq], by simp⟩
    | unrecognized =>
      exact ⟨raise .invalidConfiguration s, rfl, rfl, fun q _ => by simp, by simp⟩

end Sys2Proof.Machine

namespace Sys2Proof.Machine

/-! ### PhysicalRead as one update of the state (R112) -/

/-- Preparing a read writes TS and puts one BusWrite of RM on the bus, and does nothing else. -/
theorem afterPrepare_eq (s : State) :
    afterPrepare s = { s.takeWriteAnswer with
      ts := s.now
      trace := s.trace ++ [.busWrite s.cfg.devAddr s.rm s.nextWriteAnswer] } := by
  unfold afterPrepare State.afterWrite
  rw [State.setTs_takeWriteAnswer]
  apply State.ext <;> simp

/-- The BusWrite of RM leaves the read answers alone. -/
@[simp] theorem afterPrepare_nextReadAnswer (s : State) :
    (afterPrepare s).nextReadAnswer = s.nextReadAnswer := by simp [afterPrepare]

/-- A prepared read followed by its BusRead: TS and the two transactions are all that is new. -/
theorem afterPrepare_afterRead_eq {s : State} (hw : s.nextWriteAnswer = .ack) :
    (afterPrepare s).afterRead = { s.takeWriteAnswer.takeReadAnswer with
      ts := s.now
      trace := s.trace ++
        [.busWrite s.cfg.devAddr s.rm .ack, .busRead s.cfg.devAddr s.nextReadAnswer] } := by
  rw [State.afterRead, afterPrepare_nextReadAnswer, afterPrepare, State.afterWrite, State.setTs_takeWriteAnswer,
    State.logEvent_takeReadAnswer, State.setTs_takeReadAnswer]
  apply State.ext <;> simp [hw]

/-- The pins' levels after a read determine the byte BUF holds (R112). -/
theorem eq_takenIn {r b : Byte} {s : State} (hb : ∀ q : Pin, pinBit b q = levelAfterRead r s q) :
    b = takenIn r s :=
  byte_ext fun q => by rw [hb, pinBit_takenIn]

/-- The transactions of a read change none of the registers a byte is merged with. -/
theorem takenIn_afterPrepare_afterRead (r : Byte) (s : State) :
    takenIn r (afterPrepare s).afterRead = takenIn r s := by
  simp [takenIn, qualifyingEdges, mergedByte, afterPrepare]

/-- Settles O21: each way PhysicalRead ends is known, and leaves the state with TS, the trace and, for a byte, BUF
replaced. -/
theorem physicalReadProcedure : Obligations.PhysicalReadProcedure := by
  refine fun s => ⟨fun hw => ?_, fun hw hr => ?_, fun r b hw hr hb => ?_⟩
  · rw [physicalRead_nack hw, afterPrepare_eq, hw]
  · rw [physicalRead_empty hw hr, afterPrepare_afterRead_eq hw, hr]
  · rw [physicalRead_byte hw hr, mergeByte_eq, takenIn_afterPrepare_afterRead, ← eq_takenIn hb,
      afterPrepare_afterRead_eq hw, hr]
    rfl

end Sys2Proof.Machine

namespace Sys2Proof.Machine

/-! ### The decision table, the count and the position (R141, R144, R145) -/

/-- A poll counts at most one step. -/
theorem tableDelta_cases (prevA prevB curA curB rev : Bool) :
    tableDelta prevA prevB curA curB rev = -1 ∨ tableDelta prevA prevB curA curB rev = 0 ∨
      tableDelta prevA prevB curA curB rev = 1 := by
  revert prevA prevB curA curB rev; decide

/-- The REV column of R141 is the negated count. -/
theorem tableDelta_reversed (prevA prevB curA curB : Bool) :
    tableDelta prevA prevB curA curB true = -tableDelta prevA prevB curA curB false := rfl

/-- The block's 2-bit DELTA is the table's count, in all sixteen entries and both REV columns. -/
theorem quadratureDelta_combinedPhase (prevA prevB curA curB rev : Bool) :
    quadratureDelta (combinedPhase prevA prevB curA curB) rev =
      BitVec.ofInt 2 (tableDelta prevA prevB curA curB rev) := by
  revert prevA prevB curA curB rev; decide

/-- Two bits hold every count a poll can have. -/
theorem toInt_ofInt_two {d : Int} (hd : d = -1 ∨ d = 0 ∨ d = 1) : (BitVec.ofInt 2 d).toInt = d := by
  obtain rfl | rfl | rfl := hd <;> decide

/-- The position is the wrapped sum at every width: sign extension to fewer than two bits only drops multiples of
the modulus. -/
theorem positionAfter_eq (w posIn : Nat) (delta : BitVec 2) :
    positionAfter w posIn delta = ((posIn + delta.toInt) % 2 ^ w).toNat := by
  rw [positionAfter, BitVec.signExtend, ← BitVec.ofInt_natCast, ← BitVec.ofInt_add, BitVec.toNat_ofInt]
  norm_cast

/-- The response ENC computes is the one the table and R145 give. -/
theorem encResponse_eq_pollResponse (prevA prevB curA curB rev : Bool) (s : State) :
    encResponse (quadratureDelta (combinedPhase prevA prevB curA curB) rev) s =
      pollResponse s (tableDelta prevA prevB curA curB rev) := by
  have hd := toInt_ofInt_two (tableDelta_cases prevA prevB curA curB rev)
  have hzero : BitVec.ofInt 2 (tableDelta prevA prevB curA curB rev) = 0#2 ↔
      tableDelta prevA prevB curA curB rev = 0 := by
    rw [← BitVec.toInt_inj, hd, BitVec.toInt_zero]
  simp [encResponse, pollResponse, quadratureDelta_combinedPhase, positionAfter_eq, hd, hzero]

/-- The response of a poll depends on the parameters and POS_IN alone. -/
theorem pollResponse_congr {s t : State} (hcfg : t.cfg = s.cfg) (hpos : t.posIn = s.posIn) (d : Int) :
    pollResponse t d = pollResponse s d := by
  simp only [pollResponse, hcfg, hpos]

/-- A step of less than the modulus brings a position back to itself only if it is no step. -/
theorem add_emod_eq_self_iff {n p d : Int} (hp : 0 ≤ p) (hpn : p < n) (hd : |d| < n) :
    (p + d) % n = p ↔ d = 0 := by
  refine ⟨fun h => ?_, fun h => by rw [h, add_zero, Int.emod_eq_of_lt hp hpn]⟩
  have hdvd : n ∣ p + d - p := by simpa only [h] using Int.dvd_self_sub_emod (x := p + d) (m := n)
  exact Int.eq_zero_of_abs_lt_dvd (by simpa using hdvd) hd

/-! ### ENC between its two reads and its response (R142) -/

/-- The two phase updates of a poll write PHASE and nothing else (R143). -/
theorem recordPhase_recordPhase_eq (a b : Pin) (curA curB : Bool) (s : State) :
    recordPhase b curB (recordPhase a curA s) =
      s.setPhase (recordPhase b curB (recordPhase a curA s)).phase := by
  rw [recordPhase_eq b curB (recordPhase a curA s), recordPhase_eq a curA s]
  rfl

/-- Both forced reads of a poll together are a read of the state DETACH left. -/
theorem forcedReads_frame {a b : Pin} {curA curB : Bool} {s s1 s2 : State}
    (hA : readPin a true (emitDetach s) = .done curA s1) (hB : readPin b true s1 = .done curB s2) :
    ReadFrame (emitDetach s) s2 := by
  have frameA := readPin_frame a true (emitDetach s)
  have frameB := readPin_frame b true s1
  rw [hA] at frameA
  rw [hB] at frameB
  exact frameA.trans frameB

/-- Two forced reads that return decide a poll: the phase update, REATTACH and the response of the table are all
that follows them. -/
theorem exec_enc_of_reads {a b : Pin} {curA curB : Bool} {s s1 s2 : State} (rev : Bool)
    (hA : readPin a true (emitDetach s) = .done curA s1) (hB : readPin b true s1 = .done curB s2) :
    exec (.enc a b rev) s = .next ((emitReattach (recordPhase b curB (recordPhase a curA s2))).setResp
      (pollResponse s (tableDelta (pinBit s.phase a) (pinBit s.phase b) curA curB rev))) := by
  have frame := forcedReads_frame hA hB
  have hresp : pollResponse s2 (tableDelta (pinBit s.phase a) (pinBit s.phase b) curA curB rev) =
      pollResponse s (tableDelta (pinBit s.phase a) (pinBit s.phase b) curA curB rev) :=
    pollResponse_congr frame.cfg frame.posIn _
  have henc : exec (.enc a b rev) s =
      commit (finishPoll a b rev (pinBit s.phase a) (pinBit s.phase b) curA curB s2) := by
    simp only [exec, execEnc, hA, hB, Progress.done_andThen]
  rw [henc, finishPoll, commit_eq, Progress.settle_done, encResponse_eq_pollResponse, hresp]

/-- A completed poll has made both of its forced reads. -/
theorem reads_of_exec_enc {a b : Pin} {rev : Bool} {s t : State} (h : exec (.enc a b rev) s = .next t)
    (ht : t.stuck = false) :
    ∃ curA s1 curB s2, readPin a true (emitDetach s) = .done curA s1 ∧ readPin b true s1 = .done curB s2 := by
  obtain ⟨curA, s1, curB, s2, hA, hB, -⟩ | ⟨t', -, hstuck, hnext, -⟩ := execEnc_cases a b rev s
  · exact ⟨curA, s1, curB, s2, hA, hB⟩
  · obtain rfl : t' = t := Host.Outcome.next.inj (hnext.symm.trans h)
    exact absurd hstuck (by simp [ht])

/-- The response of a completed poll is the table's, for the levels its reads gave. -/
theorem resp_of_exec_enc {a b : Pin} {rev : Bool} {s t : State} (h : exec (.enc a b rev) s = .next t)
    (ht : t.stuck = false) :
    ∃ curA curB,
      t.resp = pollResponse s (tableDelta (pinBit s.phase a) (pinBit s.phase b) curA curB rev) := by
  obtain ⟨curA, s1, curB, s2, hA, hB⟩ := reads_of_exec_enc h ht
  obtain rfl := Host.Outcome.next.inj ((exec_enc_of_reads rev hA hB).symm.trans h)
  exact ⟨curA, curB, rfl⟩

/-- Settles O32: the reads leave PHASE, POS_IN and the parameters alone, so the rest of the poll works on the stored
phase; pin B is recorded after pin A. -/
theorem encDecodesForcedReads : Obligations.EncDecodesForcedReads := by
  intro a b rev curA curB s s1 s2 hA hB
  refine ⟨_, exec_enc_of_reads rev hA hB, ?_, fun q => ?_⟩
  · exact congrArg (fun u => (emitReattach u).setResp _) (recordPhase_recordPhase_eq a b curA curB s2)
  · simp [(forcedReads_frame hA hB).phase]

/-- Settles O36: REV reaches neither the reads nor the phase update, only the count of the table. -/
theorem reversalNegatesDelta : Obligations.ReversalNegatesDelta := by
  intro a b s t u ht hu hstuck
  obtain ⟨curA, s1, curB, s2, hA, hB⟩ := reads_of_exec_enc ht hstuck
  obtain rfl := Host.Outcome.next.inj ((exec_enc_of_reads false hA hB).symm.trans ht)
  obtain rfl := Host.Outcome.next.inj ((exec_enc_of_reads true hA hB).symm.trans hu)
  simp [pollResponse, tableDelta_reversed, BitVec.ofInt_neg]

/-- Settles O37: the count fits DELTA's two bits, and a step of -1 or +1 is less than the modulus of any width above
0, so the position moves exactly if the count is not 0. -/
theorem positionFollowsDelta : Obligations.PositionFollowsDelta := by
  intro a b rev s t hw hpos h hstuck
  obtain ⟨curA, curB, hresp⟩ := resp_of_exec_enc h hstuck
  have hd := tableDelta_cases (pinBit s.phase a) (pinBit s.phase b) curA curB rev
  generalize tableDelta (pinBit s.phase a) (pinBit s.phase b) curA curB rev = d at hresp hd
  have hmod : (2 : Int) ≤ 2 ^ s.cfg.posW := by exact_mod_cast Nat.pow_le_pow_right (n := 2) (by decide) hw
  have hdelta : t.resp.delta.toInt = d := by rw [hresp]; exact toInt_ofInt_two hd
  have hposOut : (t.resp.posOut : Int) = (s.posIn + d) % 2 ^ s.cfg.posW := by
    rw [hresp]
    exact Int.toNat_of_nonneg (Int.emod_nonneg _ (by omega))
  refine ⟨by rw [hposOut, hdelta], by rwa [hdelta], ?_⟩
  calc t.resp.posOut = s.posIn
      ↔ (s.posIn + d) % 2 ^ s.cfg.posW = s.posIn := by rw [← hposOut, Nat.cast_inj]
    _ ↔ d = 0 := add_emod_eq_self_iff (by omega) (by exact_mod_cast hpos) (by rw [abs_lt]; omega)
    _ ↔ t.resp.changed = false := by simp [hresp, pollResponse]

end Sys2Proof.Machine

namespace Sys2Proof.Machine

/-! ### A refused write (R163) -/

theorem busWrites_append (l l' : List PortEvent) : busWrites (l ++ l') = busWrites l + busWrites l' :=
  List.countP_append

/-- A BusWrite is counted once, whatever comes back. -/
theorem busWrites_afterWrite (b : Byte) (s : State) :
    busWrites (s.afterWrite b).trace = busWrites s.trace + 1 := by
  rw [State.afterWrite_trace, busWrites_append]
  rfl

/-- ACT refused: the response and the bus record are all that is new (R110). -/
theorem exec_act_nack {s : State} (h : s.nextWriteAnswer = .nack) (hconf : s.wm ||| s.rm ≠ 0#8) :
    exec .act s = .next ((s.afterWrite (initialByte s)).setResp (.ofStatus .deviceUnreachable)) := by
  simp [exec, execAct, hconf, busWrite_nack h, commit_eq]

/-- A refused Transmit ends WR and WRA with DEVICE_UNREACHABLE (R115, R116). -/
theorem commit_transmit_nack {s : State} (h : s.nextWriteAnswer = .nack) :
    commit ((transmit s).andThen fun acked s1 => .done (transmitStatus acked) s1) =
      .next ((s.afterWrite (outputByte s)).setResp (.ofStatus .deviceUnreachable)) := by
  rw [transmit, busWrite_nack h]
  rfl

/-- WR refused: WBUF is written before Transmit and stays written (R115). -/
theorem exec_wr_nack {s : State} (h : s.nextWriteAnswer = .nack) (p : Pin) (v : Bool) :
    exec (.wr p v) s = .next (((s.setWbuf (setPinBit s.wbuf p v)).afterWrite
      (outputByte (s.setWbuf (setPinBit s.wbuf p v)))).setResp (.ofStatus .deviceUnreachable)) :=
  commit_transmit_nack h

/-- WRA refused: WBUF is written before Transmit and stays written (R116). -/
theorem exec_wra_nack {s : State} (h : s.nextWriteAnswer = .nack) (levels : Byte) :
    exec (.wra levels) s = .next (((s.setWbuf levels).afterWrite
      (outputByte (s.setWbuf levels))).setResp (.ofStatus .deviceUnreachable)) :=
  commit_transmit_nack h

/-- Settles O42: each refused command's next state is one BusWrite and the response; for WR and WRA it starts from
the state whose WBUF is already written. -/
theorem nackReportsDeviceUnreachable : Obligations.NackReportsDeviceUnreachable := by
  refine fun s h => ⟨fun hconf => ?_, fun p v => ?_, fun levels => ?_⟩
  · exact ⟨_, exec_act_nack h hconf, rfl, busWrites_afterWrite _ s, by simp⟩
  · exact ⟨_, exec_wr_nack h p v, rfl, busWrites_afterWrite _ _, by simp⟩
  · exact ⟨_, exec_wra_nack h levels, rfl, busWrites_afterWrite _ _, by simp⟩

/-! ### Commands that put only bus transactions on the ports (R170) -/

/-- From `s` to `t` the ports saw bus transactions only, and no event reached the bridge. -/
def BusOnly (s t : State) : Prop :=
  ∃ mid : List PortEvent, mid.all PortEvent.isBus = true ∧ t.trace = s.trace ++ mid ∧ t.bridge = s.bridge

theorem BusOnly.of_eq {s t : State} (htrace : t.trace = s.trace) (hbridge : t.bridge = s.bridge) :
    BusOnly s t := ⟨[], rfl, by simp [htrace], hbridge⟩

theorem BusOnly.trans {s t u : State} (hst : BusOnly s t) (htu : BusOnly t u) : BusOnly s u := by
  obtain ⟨mid, hmid, htrace, hbridge⟩ := hst
  obtain ⟨mid', hmid', htrace', hbridge'⟩ := htu
  exact ⟨mid ++ mid', by rw [List.all_append, hmid, hmid']; rfl,
    by rw [htrace', htrace, List.append_assoc], hbridge'.trans hbridge⟩

/-- A part and what goes on with its value. -/
theorem BusOnly.andThen {α β : Type} {s : State} {x : Progress α} {k : α → State → Progress β}
    (hx : BusOnly s x.state) (hk : ∀ a s1, BusOnly s1 (k a s1).state) : BusOnly s (x.andThen k).state := by
  cases x with
  | done a s1 => exact hx.trans (hk a s1)
  | stuck s1 => exact hx

/-- The response of a command is no port event. -/
theorem BusOnly.of_commit {s t : State} {x : Progress Response} (hx : BusOnly s x.state)
    (h : commit x = .next t) : BusOnly s t := by
  obtain rfl : x.settle = t := Host.Outcome.next.inj h
  cases x with
  | done r s1 => exact hx.trans (.of_eq rfl rfl)
  | stuck s1 => exact hx

theorem busWrite_busOnly (b : Byte) (s : State) : BusOnly s (busWrite b s).state := by
  have hafter : BusOnly s (s.afterWrite b) := ⟨[_], rfl, s.afterWrite_trace b, s.afterWrite_bridge b⟩
  rcases busWrite_cases b s with ⟨-, h⟩ | ⟨-, h⟩ | ⟨-, h⟩ <;> rw [h]
  · exact hafter
  · exact hafter
  · exact hafter.trans (.of_eq rfl rfl)

theorem readEvents_all_isBus (s : State) : (readEvents s).all PortEvent.isBus = true := by
  unfold readEvents
  split <;> rfl

theorem physicalRead_busOnly (s : State) : BusOnly s (physicalRead s).state :=
  ⟨readEvents s, readEvents_all_isBus s, physicalRead_trace s, (physicalRead_frame s).bridge⟩

theorem readPin_busOnly (p : Pin) (f : Bool) (s : State) : BusOnly s (readPin p f s).state := by
  have hbridge := (readPin_frame p f s).bridge
  rcases readPin_bus p f s with ⟨htrace, -⟩ | ⟨htrace, -⟩
  · exact .of_eq htrace hbridge
  · exact ⟨readEvents s, readEvents_all_isBus s, htrace, hbridge⟩

/-- CFG writes masks and answers, with nothing on the ports. -/
theorem exec_cfg_busOnly {p : Pin} {dir : Direction} {lvl : Bool} {s t : State}
    (h : exec (.cfg p dir lvl) s = .next t) : BusOnly s t := by
  cases dir <;> cases h <;> exact .of_eq rfl rfl

theorem exec_act_busOnly {s t : State} (h : exec .act s = .next t) : BusOnly s t := by
  refine .of_commit ?_ h
  split
  · exact .of_eq rfl rfl
  · refine .andThen (busWrite_busOnly (initialByte s) s) fun acked s1 => ?_
    cases acked <;> exact .of_eq rfl rfl

theorem exec_rd_busOnly {p : Pin} {f : Bool} {s t : State} (h : exec (.rd p f) s = .next t) : BusOnly s t :=
  .of_commit (.andThen (readPin_busOnly p f s) fun _ _ => .of_eq rfl rfl) h

/-- Transmit and the answer that follows it, for WR and WRA. -/
theorem transmit_answer_busOnly (s : State) :
    BusOnly s ((transmit s).andThen fun acked s1 => .done (transmitStatus acked) s1).state :=
  .andThen (busWrite_busOnly (outputByte s) s) fun _ _ => .of_eq rfl rfl

theorem exec_wr_busOnly {p : Pin} {v : Bool} {s t : State} (h : exec (.wr p v) s = .next t) : BusOnly s t :=
  .of_commit (transmit_answer_busOnly (s.setWbuf (setPinBit s.wbuf p v))) h

theorem exec_wra_busOnly {levels : Byte} {s t : State} (h : exec (.wra levels) s = .next t) : BusOnly s t :=
  .of_commit (transmit_answer_busOnly (s.setWbuf levels)) h

theorem exec_rda_busOnly {s t : State} (h : exec .rda s = .next t) : BusOnly s t := by
  refine .of_commit (.andThen ?_ fun _ s1 => ?_) h
  · split
    · exact physicalRead_busOnly s
    · exact .of_eq rfl rfl
  · exact .of_eq (readPins_trace allPins 0#8 s1) (readPins_frame allPins 0#8 s1).bridge

/-! ### The bracketed events of a poll (R170) -/

@[simp] theorem recordPhase_trace (p : Pin) (v : Bool) (s : State) : (recordPhase p v s).trace = s.trace := by
  rw [recordPhase_eq]
  rfl

@[simp] theorem recordPhase_bridge (p : Pin) (v : Bool) (s : State) :
    (recordPhase p v s).bridge = s.bridge := by
  rw [recordPhase_eq]
  rfl

/-- Between DETACH and REATTACH a poll puts only bus transactions on the ports. -/
theorem forcedReads_busOnly {a b : Pin} {curA curB : Bool} {s s1 s2 : State}
    (hA : readPin a true (emitDetach s) = .done curA s1) (hB : readPin b true s1 = .done curB s2) :
    BusOnly (emitDetach s) s2 := by
  have busA := readPin_busOnly a true (emitDetach s)
  have busB := readPin_busOnly b true s1
  rw [hA] at busA
  rw [hB] at busB
  exact busA.trans busB

/-- What a completed poll puts on the ports, and what it does to the bridge. -/
theorem exec_enc_events {a b : Pin} {rev : Bool} {s t : State} (h : exec (.enc a b rev) s = .next t)
    (ht : t.stuck = false) :
    ∃ mid : List PortEvent, mid.all PortEvent.isBus = true ∧
      t.trace = s.trace ++ [.detach] ++ mid ++ [.reattach] ∧ t.bridge = s.bridge.detach.reattach := by
  obtain ⟨curA, s1, curB, s2, hA, hB⟩ := reads_of_exec_enc h ht
  obtain rfl := Host.Outcome.next.inj ((exec_enc_of_reads rev hA hB).symm.trans h)
  obtain ⟨mid, hmid, htrace, hbridge⟩ := forcedReads_busOnly hA hB
  exact ⟨mid, hmid, by simp [htrace], by simp [hbridge]⟩

/-- Settles O43: six commands are built from parts that put only bus transactions on the ports, and the seventh has
DETACH before its two reads and REATTACH after them. -/
theorem onlyEncEmitsBracketedEvents : Obligations.OnlyEncEmitsBracketedEvents := by
  intro i s t h ht
  cases i with
  | cfg p dir lvl => exact exec_cfg_busOnly h
  | act => exact exec_act_busOnly h
  | rd p force => exact exec_rd_busOnly h
  | wr p v => exact exec_wr_busOnly h
  | wra levels => exact exec_wra_busOnly h
  | rda => exact exec_rda_busOnly h
  | enc a b rev => exact exec_enc_events h ht

end Sys2Proof.Machine

namespace Sys2Proof

/-! ### The formats of a word (R71 to R75, R80): a word is its fields, and a reserved field is 0 -/

/-- A reserved field of a word with no reserved bit set is 0 (R80). -/
theorem extractLsb'_eq_zero_of_and_eq_zero {w reserved : CmdWord} (h : w &&& reserved = 0) {start len : Nat}
    (hones : reserved.extractLsb' start len = BitVec.allOnes len) : w.extractLsb' start len = 0#len := by
  have hfield := congrArg (·.extractLsb' start len) h
  simpa [BitVec.extractLsb'_and, hones] using hfield

theorem pinBits_pinOfBits (x : BitVec 3) : pinBits (pinOfBits x) = x := by
  simp [pinBits, pinOfBits]

/-- A one-bit field as a bit vector. -/
theorem ofBool_getLsbD (w : CmdWord) (i : Nat) : BitVec.ofBool (w.getLsbD i) = w.extractLsb' i 1 := by
  apply BitVec.eq_of_getLsbD_eq
  intro j hj
  obtain rfl : j = 0 := by omega
  simp

section
variable {w : CmdWord} {op : BitVec 4} (hop : opField w = op)
include hop

/-- Format P of CFG (R72): adjacent fields join. -/
theorem formatCfg_fields (h : w &&& 0x08F8 = 0) :
    op ++ 0#1 ++ pinBits (paField w) ++ 0#5 ++ BitVec.ofBool (lvlField w) ++ dirBits (dirField w) = w := by
  rw [← extractLsb'_eq_zero_of_and_eq_zero h (start := 11) (len := 1) (by decide),
    ← extractLsb'_eq_zero_of_and_eq_zero h (start := 3) (len := 5) (by decide)]
  simp only [← hop, opField, paField, pinBits_pinOfBits, dirBits_dirField, lvlField, ofBool_getLsbD,
    BitVec.extractLsb'_append_extractLsb'_eq_extractLsb', BitVec.extractLsb'_eq_self]

/-- Format P of RD and WR (R72). -/
theorem formatPinFlag_fields (h : w &&& 0x08FE = 0) :
    op ++ 0#1 ++ pinBits (paField w) ++ 0#7 ++ BitVec.ofBool (flagField w) = w := by
  rw [← extractLsb'_eq_zero_of_and_eq_zero h (start := 11) (len := 1) (by decide),
    ← extractLsb'_eq_zero_of_and_eq_zero h (start := 1) (len := 7) (by decide)]
  simp only [← hop, opField, paField, pinBits_pinOfBits, flagField, ofBool_getLsbD,
    BitVec.extractLsb'_append_extractLsb'_eq_extractLsb', BitVec.extractLsb'_eq_self]

/-- Format N of ACT and RDA (R73). -/
theorem formatBare_fields (h : w &&& 0x0FFF = 0) : op ++ 0#12 = w := by
  rw [← extractLsb'_eq_zero_of_and_eq_zero h (start := 0) (len := 12) (by decide)]
  simp only [← hop, opField, BitVec.extractLsb'_append_extractLsb'_eq_extractLsb', BitVec.extractLsb'_eq_self]

/-- Format L of WRA (R74). -/
theorem formatLevels_fields (h : w &&& 0x0F00 = 0) : op ++ 0#4 ++ levelsField w = w := by
  rw [← extractLsb'_eq_zero_of_and_eq_zero h (start := 8) (len := 4) (by decide)]
  simp only [← hop, opField, levelsField, BitVec.extractLsb'_append_extractLsb'_eq_extractLsb',
    BitVec.extractLsb'_eq_self]

/-- Format E of ENC (R75). -/
theorem formatPair_fields (h : w &&& 0x088E = 0) :
    op ++ 0#1 ++ pinBits (paField w) ++ 0#1 ++ pinBits (pbField w) ++ 0#3 ++
      BitVec.ofBool (flagField w) = w := by
  have h11 := extractLsb'_eq_zero_of_and_eq_zero h (start := 11) (len := 1) (by decide)
  have h7 := extractLsb'_eq_zero_of_and_eq_zero h (start := 7) (len := 1) (by decide)
  have h1 := extractLsb'_eq_zero_of_and_eq_zero h (start := 1) (len := 3) (by decide)
  calc
    _ = op ++ w.extractLsb' 11 1 ++ pinBits (paField w) ++ w.extractLsb' 7 1 ++ pinBits (pbField w) ++
        w.extractLsb' 1 3 ++ BitVec.ofBool (flagField w) := by rw [h11, h7, h1]
    _ = w := by
      simp only [← hop, opField, paField, pbField, pinBits_pinOfBits, flagField, ofBool_getLsbD,
        BitVec.extractLsb'_append_extractLsb'_eq_extractLsb', BitVec.extractLsb'_eq_self]

end

/-- Where a word's reserved bits are 0, the command of its format is written back as the same word: the case split is
the decoder's own, over the opcode. -/
theorem encode_of_formatOf {w reserved : CmdWord} {i : Instr} (hf : formatOf w = some (reserved, i))
    (h : w &&& reserved = 0) : encode i = w := by
  unfold formatOf at hf
  split_ifs at hf with hop hop hop hop hop hop hop <;> cases hf
  · exact formatCfg_fields hop h
  · exact formatBare_fields hop h
  · exact formatPinFlag_fields hop h
  · exact formatPinFlag_fields hop h
  · exact formatLevels_fields hop h
  · exact formatBare_fields hop h
  · exact formatPair_fields hop h

/-- Settles O2: a decoded word has the command of its format and no reserved bit set. -/
theorem encodeOfDecode : Obligations.EncodeOfDecode := by
  intro w i h
  obtain ⟨reserved, hf, hres⟩ := decode_eq_instr_iff.1 h
  exact encode_of_formatOf hf hres

/-- Settles O1, one instruction after the other: the operands of none have more than 256 values together. -/
theorem decodeOfEncode : Obligations.DecodeOfEncode := by
  intro i
  cases i with
  | cfg p dir lvl => cases dir <;> revert p lvl <;> decide
  | act => decide
  | rd p force => revert p force; decide
  | wr p v => revert p v; decide
  | wra levels => revert levels; decide
  | rda => decide
  | enc a b rev => revert a b rev; decide

/-! ### The opcode map (R76) -/

/-- The bits the format of a word reserves, which its OP decides (R72 to R76). -/
def reservedOf (w : CmdWord) : Option CmdWord := (formatOf w).map Prod.fst

theorem reservedOf_congr {w v : CmdWord} (h : opField w = opField v) : reservedOf w = reservedOf v := by
  unfold reservedOf formatOf
  rw [h]
  split_ifs <;> rfl

/-- A word decodes to an instruction just when its OP is defined and no bit its format reserves is set. -/
theorem decodes_iff {w : CmdWord} :
    (∃ i, decode w = .instr i) ↔ ∃ reserved, reservedOf w = some reserved ∧ w &&& reserved = 0 := by
  simp only [decode_eq_instr_iff, reservedOf, Option.map_eq_some_iff, Prod.exists, exists_and_right,
    exists_eq_right]
  exact exists_comm.trans (by simp)

/-- A row of the opcode map masks OP and the bits its format reserves, and its match has these at 0. -/
theorem row_of_mem_opcodeTable {r : OpcodeRow} (hr : r ∈ opcodeTable) :
    r.mask.extractLsb' 12 4 = BitVec.allOnes 4 ∧ ∃ reserved, reservedOf r.pattern = some reserved ∧
      r.mask &&& reserved = reserved ∧ r.pattern &&& reserved = 0 := by
  fin_cases hr <;> exact ⟨by decide, _, rfl, by decide, by decide⟩

/-- A word that selects a row of the opcode map decodes. -/
theorem decodes_of_selects {r : OpcodeRow} {w : CmdWord} (hr : r ∈ opcodeTable) (h : r.selects w = true) :
    ∃ i, decode w = .instr i := by
  obtain ⟨hmask, reserved, hpattern, hcovers, hzero⟩ := row_of_mem_opcodeTable hr
  have hw : w &&& r.mask = r.pattern := beq_iff_eq.1 h
  have hop : opField w = opField r.pattern := by
    rw [← hw, opField, opField, BitVec.extractLsb'_and, hmask, BitVec.and_allOnes]
  refine decodes_iff.2 ⟨reserved, (reservedOf_congr hop).trans hpattern, ?_⟩
  calc w &&& reserved = w &&& r.mask &&& reserved := by rw [BitVec.and_assoc, hcovers]
    _ = 0 := by rw [hw, hzero]

/-- Every encoded word selects its instruction's own row and no other. -/
theorem encode_selects_own_row (i : Instr) :
    (opcodeTable.filter (·.selects (encode i))).map (·.mnemonic) = [i.mnemonic] := by
  cases i with
  | cfg p dir lvl => exact Laws.EncodesOwnRow.cfg p dir lvl
  | act => exact Laws.EncodesOwnRow.act
  | rd p force => exact Laws.EncodesOwnRow.rd p force
  | wr p v => exact Laws.EncodesOwnRow.wr p v
  | wra levels => exact Laws.EncodesOwnRow.wra levels
  | rda => exact Laws.EncodesOwnRow.rda
  | enc a b rev => exact Laws.EncodesOwnRow.enc a b rev

/-- Settles O3: a decoded word is the encoding of its instruction, so it selects that instruction's own row, and a word
that selects any row decodes. -/
theorem decodeAgreesWithOpcodeMap : Obligations.DecodeAgreesWithOpcodeMap := by
  intro w
  cases hw : decode w with
  | instr i =>
    rw [← encodeOfDecode w i hw]
    exact encode_selects_own_row i
  | illegal why =>
    have hnone : ∀ r ∈ opcodeTable, ¬ r.selects w = true := fun r hr h => by
      obtain ⟨i, hi⟩ := decodes_of_selects hr h
      rw [hi] at hw
      cases hw
    rw [List.filter_eq_nil_iff.2 hnone]
    rfl

/-- The check of R80 is the decoder's: a well-formed word is one that decodes. -/
theorem wellFormedWord_iff_decodes (w : CmdWord) : wellFormedWord w = true ↔ ∃ i, decode w = .instr i := by
  refine ⟨fun h => ?_, fun ⟨i, hi⟩ => ?_⟩
  · obtain ⟨r, hr, hsel⟩ := List.any_eq_true.1 h
    exact decodes_of_selects hr hsel
  · have hrow := encode_selects_own_row i
    rw [encodeOfDecode w i hi] at hrow
    by_contra hany
    rw [wellFormedWord, Bool.not_eq_true, List.any_eq_false] at hany
    rw [List.filter_eq_nil_iff.2 hany] at hrow
    cases hrow

end Sys2Proof

namespace Sys2Proof.Machine

/-! ### One step: the host's first action (R58, R79, R80, R167, R171) -/

/-- A block that is not stuck samples its ports and runs the word presented. -/
theorem step_command {s : State} {w : CmdWord} {pos adv : Nat} {rest : List HostAction} (hs : s.stuck = false)
    (hh : s.host = .command w pos adv :: rest) : step s = runWord w (s.accept rest pos adv) := by
  simp [step, hh, perform, hs]

theorem runWord_instr {w : CmdWord} {i : Instr} (h : decode w = .instr i) (s : State) :
    runWord w s = exec i s := by
  simp [runWord, h]

theorem runWord_illegal {w : CmdWord} (h : ¬ ∃ i, decode w = .instr i) (s : State) :
    runWord w s = .next (rejectWord s) := by
  cases hw : decode w with
  | instr i => exact absurd ⟨i, hw⟩ h
  | illegal why => simp [runWord, hw]

/-- Settles O7: acceptance is the update of the three fields that sample the ports. -/
theorem stepRunsDecodedCommand : Obligations.StepRunsDecodedCommand := by
  intro s w pos adv rest i hs hh hi
  rw [step_command hs hh, runWord_instr hi]
  rfl

/-- Presenting a word with the ports as they stand changes the queue alone, and accepting it takes it off again. -/
theorem present_accept {s : State} (hnow : s.now < 2 ^ s.cfg.tsW) (hpos : s.posIn < 2 ^ s.cfg.posW)
    (w : CmdWord) : (s.present w).accept s.host s.posIn 0 = s := by
  apply State.ext <;> simp [State.present, Nat.mod_eq_of_lt, hnow, hpos]

/-- Settles O8: the step accepts the placed word and is back in the state it was placed in. -/
theorem placedWordRunsNext : Obligations.PlacedWordRunsNext := by
  intro s nbits w i hs hnow hpos hi
  have hdecode : decode (tableWord nbits w) = .instr i := by
    rw [decodeTableWord] at hi
    cases hd : decode (tableWord nbits w) <;> simp_all [Decoded.toOption]
  have hstep : step (s.withFetchWord nbits w) =
      runWord (tableWord nbits w) ((s.present (tableWord nbits w)).accept s.host s.posIn 0) :=
    step_command hs rfl
  rw [hstep, present_accept hnow hpos, runWord_instr hdecode]

/-- OP as a number. -/
theorem opField_toNat (w : CmdWord) : (opField w).toNat = (w >>> 12).toNat := by
  have hlt : w.toNat >>> 12 < 2 ^ 4 := by
    rw [Nat.shiftRight_eq_div_pow, Nat.div_lt_iff_lt_mul (by decide)]
    exact w.isLt
  rw [opField, BitVec.extractLsb'_toNat, BitVec.toNat_ushiftRight, Nat.mod_eq_of_lt hlt]

/-- The word with nothing but an OP. -/
theorem opField_append_zero (op : BitVec 4) : opField (op ++ 0#12) = op := by
  revert op; decide

/-- The reserved bits of a word are those of the word with its OP and nothing else. -/
theorem reservedOf_eq_of_op (w : CmdWord) : reservedOf w = reservedOf (opField w ++ 0#12) :=
  reservedOf_congr (opField_append_zero _).symm

/-- An OP outside 1 to 7 names no format (R79). -/
theorem reservedOf_eq_none {w : CmdWord} (h : (w >>> 12).toNat = 0 ∨ 8 ≤ (w >>> 12).toNat) :
    reservedOf w = none := by
  rw [← opField_toNat] at h
  rw [reservedOf_eq_of_op]
  generalize opField w = op at h
  revert op
  decide

/-- Settles O9: a reserved OP has no format, so its word is rejected. -/
theorem reservedOpcodeOnlyAnswers : Obligations.ReservedOpcodeOnlyAnswers := by
  intro s w pos adv rest hs hh hop
  have hill : ¬ ∃ i, decode w = .instr i := by simp [decodes_iff, reservedOf_eq_none hop]
  rw [step_command hs hh, runWord_illegal hill]
  rfl

/-- Settles O10: the reserved bits of the format are those the decoder checks. -/
theorem reservedBitOnlyAnswers : Obligations.ReservedBitOnlyAnswers := by
  intro s w pos adv rest hs hh hlow hhigh reserved
  have hres : reservedOf w = some reserved := by
    simp only [reserved]
    rw [← opField_toNat] at hlow hhigh ⊢
    rw [reservedOf_eq_of_op]
    generalize opField w = op at hlow hhigh
    revert op
    decide
  have hlegal : (∃ i, decode w = .instr i) ↔ w &&& reserved = 0 := by simp [decodes_iff, hres]
  refine ⟨?_, fun hbit => ?_⟩
  · rw [← Bool.not_eq_true, wellFormedWord_iff_decodes, hlegal]
  · rw [step_command hs hh, runWord_illegal (mt hlegal.1 hbit)]
    rfl

/-- Settles O4: the seven words are evaluated. -/
theorem exampleWordsDecode : Obligations.ExampleWordsDecode := by
  unfold Obligations.ExampleWordsDecode
  decide

/-- Settles O5: every line but `.word` is an encoded instruction. -/
theorem assembledLinesDecode : Obligations.AssembledLinesDecode := by
  intro line
  cases line with
  | word w => rfl
  | cfgOut p lvl => exact decodeOfEncode (.cfg p .output lvl)
  | cfgInPd p => exact decodeOfEncode (.cfg p .inputPullDown false)
  | cfgInPu p => exact decodeOfEncode (.cfg p .inputPullUp false)
  | act => exact decodeOfEncode .act
  | rd p f => exact decodeOfEncode (.rd p f)
  | wr p v => exact decodeOfEncode (.wr p v)
  | wra levels => exact decodeOfEncode (.wra levels)
  | rda => exact decodeOfEncode .rda
  | enc a b r => exact decodeOfEncode (.enc a b r)

/-- Packing writes the bit of every pin once (R116). -/
theorem pinBit_packLevels (levels : Vector Bool 8) (p : Pin) : pinBit (packLevels levels) p = levels[p] := by
  simp only [packLevels, allPins, List.foldl_cons, List.foldl_nil, pinBit_setPinBit]
  fin_cases p <;> rfl

/-- Settles O6: packing writes each bit once, and unpacking reads it. -/
theorem bulkLevelsUnpack : Obligations.BulkLevelsUnpack := by
  refine fun levels => ⟨pinBit_packLevels levels, ?_⟩
  ext i hi
  simpa [levelsOfData] using pinBit_packLevels levels ⟨i, hi⟩

/-- Settles O11: the reset state is a literal, so its fields are evaluated. -/
theorem resetValues : Obligations.ResetValues := by
  unfold Obligations.ResetValues
  decide

/-- Settles O38: the ten transitions are evaluated. -/
theorem fullCycleCountsTwo : Obligations.FullCycleCountsTwo := by
  unfold Obligations.FullCycleCountsTwo
  decide

/-- Settles O39: the four statuses are all there are. -/
theorem statusCodes : Obligations.StatusCodes :=
  ⟨rfl, rfl, rfl, rfl, fun st => by cases st <;> decide⟩

/-! ### The host's calls of the bridge (R171) -/

theorem Bridge.detach_of_attached {br : Bridge} {a : Attachment} (hatt : br.attached = true)
    (hlast : br.last = some a) : br.detach = ⟨false, some a, br.calls ++ [.unregister a.line]⟩ := by
  simp [Bridge.detach, Bridge.unregisterCalls, hatt, hlast]

/-- Detaching is idempotent. -/
theorem Bridge.detach_of_not_attached {br : Bridge} (hatt : br.attached = false) : br.detach = br := by
  cases br
  cases hatt
  simp [Bridge.detach, Bridge.unregisterCalls]

theorem Bridge.reattach_of_some {br : Bridge} {a : Attachment} (hlast : br.last = some a) :
    br.reattach = br.attach a := by
  simp [Bridge.reattach, hlast]

theorem Bridge.reattach_of_none {br : Bridge} (hlast : br.last = none) : br.reattach = br := by
  simp [Bridge.reattach, hlast]

section
variable {s : State} {rest : List HostAction}

theorem step_attach {line callback : Nat} {edge : Option EdgeKind}
    (hh : s.host = .attach line callback edge :: rest) :
    step s = .next ((s.setHost rest).setBridge (s.bridge.attach ⟨line, callback, edgeOfCall edge⟩)) := by
  simp [step, hh, perform]

theorem step_detach (hh : s.host = .detach :: rest) :
    step s = .next ((s.setHost rest).setBridge s.bridge.detach) := by
  simp [step, hh, perform]

theorem step_reattach (hh : s.host = .reattach :: rest) :
    step s = .next ((s.setHost rest).setBridge s.bridge.reattach) := by
  simp [step, hh, perform]

end

/-- Settles O45: the step hands each call to the bridge, whose operation depends on what is attached and on the last
attachment. -/
theorem bridgeCallsFollowContract : Obligations.BridgeCallsFollowContract := by
  intro s rest a
  refine ⟨fun hh => ?_, fun hh he => ?_, fun hh hatt hlast => ?_, fun hh hatt => ?_, fun hh hlast => ?_,
    fun hh hlast => ?_⟩
  · rw [step_attach hh]; rfl
  · rw [step_attach hh, edgeOfCall_none, ← he]; rfl
  · rw [step_detach hh, Bridge.detach_of_attached hatt hlast]; rfl
  · rw [step_detach hh, Bridge.detach_of_not_attached hatt]; rfl
  · rw [step_reattach hh, Bridge.reattach_of_some hlast]; rfl
  · rw [step_reattach hh, Bridge.reattach_of_none hlast]; rfl

/-- Settles O51: the step of an empty queue is the identity. -/
theorem idleStepKeepsState : Obligations.IdleStepKeepsState := by
  intro s h
  simp [step, h]

/-- Settles O52: the reset state is a literal, and each part of the invariant is decidable. -/
theorem resetMeetsStateInv : Obligations.ResetMeetsStateInv := by
  unfold Obligations.ResetMeetsStateInv
  decide

/-- Settles O60: CFG answers in each direction, and every other command is a commit. -/
theorem execAlwaysAnswersNext : Obligations.ExecAlwaysAnswersNext := by
  intro i s
  cases i with
  | cfg p dir lvl => cases dir <;> exact ⟨_, rfl⟩
  | act => exact ⟨_, commit_eq _⟩
  | rd p force => exact ⟨_, commit_eq _⟩
  | wr p v => exact ⟨_, commit_eq _⟩
  | wra levels => exact ⟨_, commit_eq _⟩
  | rda => exact ⟨_, commit_eq _⟩
  | enc a b rev => exact ⟨_, commit_eq _⟩

/-- The kinds of step: idling, a call of the bridge, which touches nothing else, or a command of a block that is not
stuck. -/
theorem step_cases {s t : State} (h : step s = .next t) :
    (s.host = [] ∧ t = s) ∨
    (∃ a rest, s.host = a :: rest ∧ (∀ w pos adv, a ≠ .command w pos adv) ∧
      ∃ br, t = (s.setHost rest).setBridge br ∧
        ((∃ att, br = s.bridge.attach att) ∨ br = s.bridge.detach ∨ br = s.bridge.reattach)) ∨
    (s.stuck = false ∧ ∃ w pos adv rest, s.host = .command w pos adv :: rest ∧
      runWord w (s.accept rest pos adv) = .next t) := by
  cases hh : s.host with
  | nil =>
    rw [idleStepKeepsState s hh] at h
    cases h
    exact .inl ⟨rfl, rfl⟩
  | cons a rest =>
    refine .inr ?_
    cases a with
    | command w pos adv =>
      cases hs : s.stuck with
      | true => simp [step, hh, perform, hs] at h
      | false => exact .inr ⟨rfl, w, pos, adv, rest, rfl, by rwa [step_command hs hh] at h⟩
    | attach line callback edge =>
      rw [step_attach hh] at h
      cases h
      exact .inl ⟨_, rest, rfl, by simp, _, rfl, .inl ⟨_, rfl⟩⟩
    | detach =>
      rw [step_detach hh] at h
      cases h
      exact .inl ⟨_, rest, rfl, by simp, _, rfl, .inr (.inl rfl)⟩
    | reattach =>
      rw [step_reattach hh] at h
      cases h
      exact .inl ⟨_, rest, rfl, by simp, _, rfl, .inr (.inr rfl)⟩

/-- Settles O50: a stuck block idles or has its bridge called. -/
theorem stuckBlockNeverChanges : Obligations.StuckBlockNeverChanges := by
  intro s t hs h
  rcases step_cases h with ⟨hh, rfl⟩ | ⟨a, rest, hh, ha, br, rfl, -⟩ | ⟨hstuck, -⟩
  · exact ⟨rfl, by simp [hh]⟩
  · exact ⟨rfl, fun w pos adv rest' => by simp [hh, ha w pos adv]⟩
  · rw [hs] at hstuck
    cases hstuck

end Sys2Proof.Machine

namespace Sys2Proof.Machine

/-! ### One BusWrite as an update of the state (R52) -/

theorem State.afterWrite_eq (s : State) (b : Byte) :
    s.afterWrite b = { s.takeWriteAnswer with
      trace := s.trace ++ [.busWrite s.cfg.devAddr b s.nextWriteAnswer] } := by
  apply State.ext <;> simp

theorem State.setWbuf_afterWrite_eq (s : State) (wb b : Byte) :
    (s.setWbuf wb).afterWrite b = { s.takeWriteAnswer with
      wbuf := wb
      trace := s.trace ++ [.busWrite s.cfg.devAddr b s.nextWriteAnswer] } := by
  apply State.ext <;> simp [State.setWbuf_takeWriteAnswer]

/-! ### ACT (R110) -/

section
variable {s : State}

theorem exec_act_unconfigured (h : s.wm ||| s.rm = 0#8) : exec .act s = .next (s.setResp (.ofStatus .ok)) := by
  simp [exec, execAct, h, commit_eq]

theorem exec_act_ack (hw : s.nextWriteAnswer = .ack) (h : s.wm ||| s.rm ≠ 0#8) :
    exec .act s = .next (((((s.afterWrite (initialByte s)).setBuf (initialByte s)).setWbuf (initialByte s)).setTs
      s.now).setResp (.ofStatus .ok)) := by
  simp [exec, execAct, h, busWrite_ack hw, commit_eq]

theorem exec_act_never (hw : s.nextWriteAnswer = .never) (h : s.wm ||| s.rm ≠ 0#8) :
    exec .act s = .next (s.afterWrite (initialByte s)).setStuck := by
  simp [exec, execAct, h, busWrite_never hw, commit_eq]

/-- Settles O13: each way ACT ends is one update of the state. -/
theorem actBringsUp : Obligations.ActBringsUp := by
  refine fun s => ⟨fun h => ?_, fun h hw => ?_, fun h hw => ?_, fun h hw => ?_⟩
  · exact exec_act_unconfigured h
  · rw [exec_act_ack hw h, State.afterWrite_eq, hw]; rfl
  · rw [exec_act_nack hw h, State.afterWrite_eq, hw]; rfl
  · rw [exec_act_never hw h, State.afterWrite_eq, hw]; rfl

/-! ### WR and WRA (R111, R115, R116) -/

theorem commit_transmit_ack (hw : s.nextWriteAnswer = .ack) :
    commit ((transmit s).andThen fun acked s1 => .done (transmitStatus acked) s1) =
      .next ((s.afterWrite (outputByte s)).setResp (.ofStatus .ok)) := by
  rw [transmit, busWrite_ack hw]
  rfl

theorem commit_transmit_never (hw : s.nextWriteAnswer = .never) :
    commit ((transmit s).andThen fun acked s1 => .done (transmitStatus acked) s1) =
      .next (s.afterWrite (outputByte s)).setStuck := by
  rw [transmit, busWrite_never hw]
  rfl

/-- The byte Transmit sends, pin by pin (R111). -/
theorem outputByte_setWbuf_eq {wb out : Byte}
    (hout : ∀ q : Pin, pinBit out q = if pinBit s.wm q then pinBit wb q else pinBit s.wmu q) :
    outputByte (s.setWbuf wb) = out := by
  refine byte_ext fun q => ?_
  rw [hout q]
  cases h : pinBit s.wm q <;> simp [outputByte, h]

/-- What WR and WRA do once WBUF is written: its byte goes out, and the answer is the status. -/
theorem setWbuf_transmit_exact {wb out : Byte}
    (hout : ∀ q : Pin, pinBit out q = if pinBit s.wm q then pinBit wb q else pinBit s.wmu q)
    {o : Host.Outcome State Fault Refusal}
    (ho : o = commit ((transmit (s.setWbuf wb)).andThen fun acked s1 => .done (transmitStatus acked) s1)) :
    (s.nextWriteAnswer = .ack →
      o = .next { s.takeWriteAnswer with
        wbuf := wb
        trace := s.trace ++ [.busWrite s.cfg.devAddr out .ack]
        resp := ⟨.ok, 0, 0, false, 0⟩ }) ∧
    (s.nextWriteAnswer = .nack →
      o = .next { s.takeWriteAnswer with
        wbuf := wb
        trace := s.trace ++ [.busWrite s.cfg.devAddr out .nack]
        resp := ⟨.deviceUnreachable, 0, 0, false, 0⟩ }) ∧
    (s.nextWriteAnswer = .never →
      o = .next { s.takeWriteAnswer with
        wbuf := wb
        trace := s.trace ++ [.busWrite s.cfg.devAddr out .never]
        stuck := true }) := by
  have hsend := s.setWbuf_afterWrite_eq wb out
  have hbyte := outputByte_setWbuf_eq hout
  refine ⟨fun hw => ?_, fun hw => ?_, fun hw => ?_⟩ <;> rw [hw] at hsend
  · rw [ho, commit_transmit_ack (s := s.setWbuf wb) hw, hbyte, hsend]; rfl
  · rw [ho, commit_transmit_nack (s := s.setWbuf wb) hw, hbyte, hsend]; rfl
  · rw [ho, commit_transmit_never (s := s.setWbuf wb) hw, hbyte, hsend]; rfl

end

/-- Settles O14: the new WBUF differs from the old one in the bit of the pin alone. -/
theorem wrWritesBitAndTransmits : Obligations.WrWritesBitAndTransmits := by
  intro p v s wb out hwb hout
  obtain rfl : wb = setPinBit s.wbuf p v := byte_ext fun q => by rw [hwb q, pinBit_setPinBit]
  exact setWbuf_transmit_exact hout rfl

/-- Settles O15: the new WBUF is LEVELS itself. -/
theorem wraWritesLevelsAndTransmits : Obligations.WraWritesLevelsAndTransmits :=
  fun _ _ _ hout => setWbuf_transmit_exact hout rfl

/-! ### Latches (R36) -/

/-- Settles O17: under the PCR invariant a pin that is an input has exactly one of its two pull bits, and any other pin
has none. -/
theorem latchedIffInputAwayFromDefault : Obligations.LatchedIffInputAwayFromDefault := by
  intro p s h
  obtain ⟨-, hboth, hinput⟩ := pcr_bits h p
  rw [latched, ← hinput]
  cases hd : pinBit s.pd p <;> cases hu : pinBit s.pu p <;> cases pinBit s.buf p <;> simp_all

/-- Consuming the latch of `p` leaves the level reported (R113 step 5). -/
theorem pinBit_consumed_eq (p q : Pin) (s : State) :
    pinBit (consumed p s) q =
      if q = p then levelAfterReport s p (pinBit s.buf p) else pinBit s.buf q := by
  rw [pinBit_consumed]
  by_cases hq : q = p
  · subst hq
    cases hd : pinBit s.pd q <;> cases hu : pinBit s.pu q <;> cases pinBit s.buf q <;>
      simp [levelAfterReport, hd, hu]
  · simp [hq]

/-! ### RD: how it ends (R113, R114) -/

theorem exec_rd_of_done {p : Pin} {f v : Bool} {s t : State} (h : readPin p f s = .done v t) :
    exec (.rd p f) s = .next (t.setResp (.ofData (rdData v))) := by
  simp only [exec, execRd, h, Progress.done_andThen, commit_eq, Progress.settle_done, setWidth_ofBool]

theorem exec_rd_of_stuck {p : Pin} {f : Bool} {s t : State} (h : readPin p f s = .stuck t) :
    exec (.rd p f) s = .next t := by
  simp only [exec, execRd, h, Progress.stuck_andThen, commit_eq, Progress.settle_stuck]

theorem readPin_of_physicalRead_done {p : Pin} {f : Bool} {s u : State} (hl : latched p s = false)
    (hgo : f = true ∨ windowExpired s = true) (hread : physicalRead s = .done () u) :
    readPin p f s = .done (pinValue p u) (u.setBuf (consumed p u)) := by
  rw [readPin_physical hl hgo, hread, Progress.done_andThen, consumeLatch_eq]

theorem readPin_of_physicalRead_stuck {p : Pin} {f : Bool} {s u : State} (hl : latched p s = false)
    (hgo : f = true ∨ windowExpired s = true) (hread : physicalRead s = .stuck u) :
    readPin p f s = .stuck u := by
  rw [readPin_physical hl hgo, hread, Progress.stuck_andThen]

/-- RD from the cache. -/
theorem exec_rd_cached {p : Pin} {f : Bool} {s : State}
    (h : latched p s = true ∨ (f = false ∧ windowExpired s = false)) :
    exec (.rd p f) s =
      .next ((s.setBuf (consumed p s)).setResp (.ofData (rdData (reported s p (pinBit s.buf p))))) := by
  rw [exec_rd_of_done (readPin_cached h), consumeLatch_eq, pinValue_eq]

theorem readFrame_of_physicalRead_done {s u : State} (hread : physicalRead s = .done () u) : ReadFrame s u := by
  simpa [hread] using physicalRead_frame s

/-- A read changes none of the masks that latch a pin. -/
theorem ReadFrame.latched_eq {s u : State} (frame : ReadFrame s u) (hbuf : u.buf = s.buf) (p : Pin) :
    latched p u = latched p s := by
  simp only [latched, frame.pd, frame.pu, hbuf]

/-- A read changes neither WM nor WBUF. -/
theorem ReadFrame.reported_eq {s u : State} (frame : ReadFrame s u) (p : Pin) (v : Bool) :
    reported u p v = reported s p v := by
  simp only [reported, frame.wm, frame.wbuf]

theorem ReadFrame.levelAfterReport_eq {s u : State} (frame : ReadFrame s u) (p : Pin) (v : Bool) :
    levelAfterReport u p v = levelAfterReport s p v := by
  simp only [levelAfterReport, frame.pd, frame.pu]

/-- RD after a physical read that left `u`. -/
theorem exec_rd_of_physicalRead {p : Pin} {f : Bool} {s u : State} (hl : latched p s = false)
    (hgo : f = true ∨ windowExpired s = true) (hread : physicalRead s = .done () u) :
    exec (.rd p f) s =
      .next ((u.setBuf (consumed p u)).setResp (.ofData (rdData (reported s p (pinBit u.buf p))))) := by
  rw [exec_rd_of_done (readPin_of_physicalRead_done hl hgo hread), pinValue_eq,
    (readFrame_of_physicalRead_done hread).reported_eq]

theorem State.setBuf_self (s : State) : s.setBuf s.buf = s := rfl

/-- RD after a physical read that left BUF as it was: a latch that was not set still is not. -/
theorem exec_rd_of_failed_read {p : Pin} {f : Bool} {s u : State} (hl : latched p s = false)
    (hgo : f = true ∨ windowExpired s = true) (hread : physicalRead s = .done () u) (hbuf : u.buf = s.buf) :
    exec (.rd p f) s = .next (u.setResp (.ofData (rdData (reported s p (pinBit s.buf p))))) := by
  have hl' : latched p u = false := by rw [(readFrame_of_physicalRead_done hread).latched_eq hbuf, hl]
  rw [exec_rd_of_physicalRead hl hgo hread, consumed_of_not_latched hl', State.setBuf_self, hbuf]

/-- Settles O18: without a bus access only the latch of the pin is consumed. -/
theorem rdServedFromCache : Obligations.RdServedFromCache :=
  fun p _ s h => ⟨_, exec_rd_cached h, rfl, fun q => pinBit_consumed_eq p q s⟩

/-- Settles O19: PhysicalRead with a byte leaves one known state, whose pin `p` is then reported. -/
theorem rdPhysicalReadMerges : Obligations.RdPhysicalReadMerges := by
  intro p f s r hl hgo hw hr
  obtain ⟨-, -, hbyte⟩ := physicalReadProcedure s
  have hread := hbyte r (takenIn r s) hw hr (pinBit_takenIn r s)
  refine ⟨_, exec_rd_of_physicalRead hl hgo hread, ?_, fun q => ?_⟩
  · simp only [pinBit_takenIn]
    rfl
  · rw [State.setResp_buf, State.setBuf_buf, pinBit_consumed_eq,
      (readFrame_of_physicalRead_done hread).levelAfterReport_eq]
    simp only [pinBit_takenIn]

/-- Settles O20: a failed read leaves BUF as it was. -/
theorem rdFailedReadKeepsCache : Obligations.RdFailedReadKeepsCache := by
  intro p f s hl hgo
  obtain ⟨hnack, hempty, -⟩ := physicalReadProcedure s
  exact ⟨fun hw => exec_rd_of_failed_read hl hgo (hnack hw) (by simp),
    fun hw hr => exec_rd_of_failed_read hl hgo (hempty hw hr) (by simp)⟩

/-! ### RDA: how it ends (R117) -/

/-- The loop of RDA over all eight pins in the mask form of R117. -/
theorem readPins_allPins {s : State} (h : s.pd &&& s.pu = 0#8) :
    readPins allPins 0#8 s = ((s.buf &&& ~~~s.wm) ||| (s.wbuf &&& s.wm),
      s.setBuf ((s.buf &&& ~~~(s.pd ||| s.pu)) ||| s.pu)) := by
  obtain ⟨hdata, hbuf⟩ := readPins_bits allPins 0#8 s (by decide)
  obtain ⟨b, hb⟩ := readPins_state allPins 0#8 s
  rw [hb] at hbuf
  refine Prod.ext (byte_ext fun q => ?_) ?_
  · rw [hdata, if_pos (mem_allPins q)]
    cases hwm : pinBit s.wm q <;> simp [pinValue, hwm]
  · rw [hb]
    refine congrArg s.setBuf (byte_ext fun q => ?_)
    have hboth : (pinBit s.pd q && pinBit s.pu q) = false := by rw [← pinBit_and, h, pinBit_zero]
    rw [← State.setBuf_buf s b, hbuf, if_pos (mem_allPins q), pinBit_consumed_eq]
    cases hd : pinBit s.pd q <;> cases hu : pinBit s.pu q <;> cases hq : pinBit s.buf q <;>
      simp_all [levelAfterReport]

theorem exec_rda_cached {s : State} (hw : windowExpired s = false) :
    exec .rda s = .next ((readPins allPins 0#8 s).2.setResp (.ofData (readPins allPins 0#8 s).1)) := by
  simp [exec, execRda, hw, commit_eq]

theorem exec_rda_of_physicalRead {s u : State} (hw : windowExpired s = true) (hread : physicalRead s = .done () u) :
    exec .rda s = .next ((readPins allPins 0#8 u).2.setResp (.ofData (readPins allPins 0#8 u).1)) := by
  simp [exec, execRda, hw, hread, commit_eq]

theorem exec_rda_of_stuck {s u : State} (hw : windowExpired s = true) (hread : physicalRead s = .stuck u) :
    exec .rda s = .next u := by
  simp [exec, execRda, hw, hread, commit_eq]

/-- RDA after a physical read that left `u`, in the mask form over the byte BUF then holds. -/
theorem exec_rda_masks {s u : State} (h : s.pd &&& s.pu = 0#8) (hw : windowExpired s = true)
    (hread : physicalRead s = .done () u) :
    exec .rda s = .next ((u.setBuf ((u.buf &&& ~~~(s.pd ||| s.pu)) ||| s.pu)).setResp
      (.ofData ((u.buf &&& ~~~s.wm) ||| (s.wbuf &&& s.wm)))) := by
  have frame := readFrame_of_physicalRead_done hread
  rw [exec_rda_of_physicalRead hw hread, readPins_allPins (by rw [frame.pd, frame.pu, h]), frame.pd, frame.pu,
    frame.wm, frame.wbuf]

/-- Settles O22: the loop is the mask form. -/
theorem rdaServedFromCache : Obligations.RdaServedFromCache := by
  intro s h hw
  rw [exec_rda_cached hw, readPins_allPins h]
  rfl

/-- Settles O23: PhysicalRead with a byte leaves one known state, and the loop runs over its BUF. -/
theorem rdaPhysicalReadMerges : Obligations.RdaPhysicalReadMerges := by
  intro s r v h hw hack hr hv
  obtain ⟨-, -, hbyte⟩ := physicalReadProcedure s
  exact exec_rda_masks h hw (hbyte r v hack hr hv)

/-- Settles O24: a failed read leaves BUF as it was. -/
theorem rdaFailedReadKeepsCache : Obligations.RdaFailedReadKeepsCache := by
  intro s h hw
  obtain ⟨hnack, hempty, -⟩ := physicalReadProcedure s
  refine ⟨fun hn => ?_, fun ha he => ?_⟩
  · rw [exec_rda_masks h hw (hnack hn)]
    simp only [State.takeWriteAnswer_buf]
    rfl
  · rw [exec_rda_masks h hw (hempty ha he)]
    simp only [State.takeReadAnswer_buf, State.takeWriteAnswer_buf]
    rfl

end Sys2Proof.Machine

namespace Sys2Proof.Machine

/-! ### Completed reads (R113, R114, R117) -/

/-- The ways RD ends: it reports and consumes its pin in a state `u` that reads left, or it is stuck in its read. -/
theorem exec_rd_cases {p : Pin} {f : Bool} {s t : State} (h : exec (.rd p f) s = .next t) :
    (∃ u, ReadFrame s u ∧ t = (u.setBuf (consumed p u)).setResp (.ofData (rdData (reported s p (pinBit u.buf p)))) ∧
      readPin p f s = .done (reported s p (pinBit u.buf p)) (u.setBuf (consumed p u)) ∧ u.stuck = s.stuck) ∨
    (readPin p f s = .stuck t ∧ t.stuck = true) := by
  obtain ⟨u, frame, hread, hu⟩ | ⟨u, hread, hstuck⟩ :
      (∃ u, ReadFrame s u ∧ readPin p f s = .done (pinValue p u) (consumeLatch p u) ∧ u.stuck = s.stuck) ∨
      (∃ u, readPin p f s = .stuck u ∧ u.stuck = true) := by
    rcases readPin_cases p f s with hread | ⟨u, hu, hstuck, hread⟩ | ⟨u, -, hstuck, hread⟩
    · exact .inl ⟨s, .refl s, hread, rfl⟩
    · exact .inl ⟨u, readFrame_of_physicalRead_done hu, hread, hstuck⟩
    · exact .inr ⟨u, hread, hstuck⟩
  · rw [pinValue_eq, frame.reported_eq, consumeLatch_eq] at hread
    rw [exec_rd_of_done hread] at h
    exact .inl ⟨u, frame, (Host.Outcome.next.inj h).symm, hread, hu⟩
  · obtain rfl := Host.Outcome.next.inj ((exec_rd_of_stuck hread).symm.trans h)
    exact .inr ⟨hread, hstuck⟩

theorem exec_rd_completed {p : Pin} {f : Bool} {s t : State} (h : exec (.rd p f) s = .next t)
    (ht : t.stuck = false) :
    ∃ u, ReadFrame s u ∧
      t = (u.setBuf (consumed p u)).setResp (.ofData (rdData (reported s p (pinBit u.buf p)))) := by
  obtain ⟨u, frame, rfl, -⟩ | ⟨-, hstuck⟩ := exec_rd_cases h
  · exact ⟨u, frame, rfl⟩
  · rw [ht] at hstuck; cases hstuck

/-- The ways RDA ends: its loop runs in a state `u` that at most one physical read left, or it is stuck in that read. -/
theorem exec_rda_cases {s t : State} (h : exec .rda s = .next t) :
    (∃ u, (u = s ∨ physicalRead s = .done () u) ∧
      t = (readPins allPins 0#8 u).2.setResp (.ofData (readPins allPins 0#8 u).1)) ∨
    (physicalRead s = .stuck t ∧ t.stuck = true) := by
  cases hw : windowExpired s with
  | false =>
    rw [exec_rda_cached hw] at h
    exact .inl ⟨s, .inl rfl, (Host.Outcome.next.inj h).symm⟩
  | true =>
    rcases physicalRead_stuck s with ⟨u, hread, -⟩ | ⟨u, hread, hstuck⟩
    · rw [exec_rda_of_physicalRead hw hread] at h
      exact .inl ⟨u, .inr hread, (Host.Outcome.next.inj h).symm⟩
    · obtain rfl := Host.Outcome.next.inj ((exec_rda_of_stuck hw hread).symm.trans h)
      exact .inr ⟨hread, hstuck⟩

/-- A completed RDA reports every pin and consumes every latch in a state `u` that reads left. -/
theorem exec_rda_completed {s t : State} (h : exec .rda s = .next t) (ht : t.stuck = false) :
    ∃ u, ReadFrame s u ∧ t.pd = u.pd ∧ t.pu = u.pu ∧
      (∀ q, pinBit t.resp.data q = reported s q (pinBit u.buf q)) ∧
      (∀ q, pinBit t.buf q = pinBit (consumed q u) q) := by
  obtain ⟨u, hu, rfl⟩ | ⟨-, hstuck⟩ := exec_rda_cases h
  · have frame : ReadFrame s u := by
      obtain rfl | hread := hu
      · exact .refl u
      · exact readFrame_of_physicalRead_done hread
    obtain ⟨hdata, hbuf⟩ := readPins_bits allPins 0#8 u (by decide)
    have loop := readPins_frame allPins 0#8 u
    refine ⟨u, frame, loop.pd, loop.pu, fun q => ?_, fun q => ?_⟩
    · exact (hdata q).trans (by rw [if_pos (mem_allPins q), pinValue_eq, frame.reported_eq])
    · exact (hbuf q).trans (if_pos (mem_allPins q))
  · rw [ht] at hstuck; cases hstuck

/-- A consumed latch is off, as no pin has both pulls. -/
theorem latched_of_consumed {p : Pin} {u t : State} (h : u.pd &&& u.pu = 0#8) (hpd : t.pd = u.pd)
    (hpu : t.pu = u.pu) (hbuf : pinBit t.buf p = pinBit (consumed p u) p) : latched p t = false := by
  have hboth : (pinBit u.pd p && pinBit u.pu p) = false := by rw [← pinBit_and, h, pinBit_zero]
  rw [latched, hbuf, hpd, hpu, pinBit_consumed_eq, if_pos rfl, levelAfterReport]
  cases hd : pinBit u.pd p <;> cases hu : pinBit u.pu p <;> cases pinBit u.buf p <;> simp_all

/-- Settles O25: what a completed read reports it also consumes. -/
theorem readConsumesLatch : Obligations.ReadConsumesLatch := by
  refine fun s t h ht => ⟨fun p f hexec => ?_, fun hexec q => ?_⟩
  · obtain ⟨u, frame, rfl⟩ := exec_rd_completed hexec ht
    exact latched_of_consumed (u := u) (by rw [frame.pd, frame.pu, h]) rfl rfl rfl
  · obtain ⟨u, frame, hpd, hpu, -, hbuf⟩ := exec_rda_completed hexec ht
    exact latched_of_consumed (by rw [frame.pd, frame.pu, h]) hpd hpu (hbuf q)

theorem reported_output {s : State} {p : Pin} (h : pinBit s.wm p = true) (v : Bool) :
    reported s p v = pinBit s.wbuf p := if_pos h

theorem reported_not_output {s : State} {p : Pin} (h : pinBit s.wm p = false) (v : Bool) :
    reported s p v = v := by
  simp [reported, h]

/-- Settles O27: of an output pin a read reports the WBUF bit, which reads do not change. -/
theorem outputPinReadsBackWriteBuffer : Obligations.OutputPinReadsBackWriteBuffer := by
  refine fun s t ht => ⟨fun p f hwm hexec => ?_, fun hexec q hwm => ?_⟩
  · obtain ⟨u, -, rfl⟩ := exec_rd_completed hexec ht
    exact congrArg rdData (reported_output hwm _)
  · obtain ⟨u, -, -, -, hdata, -⟩ := exec_rda_completed hexec ht
    rw [hdata q, reported_output hwm]

theorem rdData_inj {v v' : Bool} (h : rdData v = rdData v') : v = v' := by
  revert v v'; decide

/-- Reporting the opposite of its default flips an input pin back to it (R119). -/
theorem levelAfterReport_away {s : State} {p : Pin} (hinput : (pinBit s.pd p || pinBit s.pu p) = true) :
    levelAfterReport s p (!pinBit s.pu p) = pinBit s.pu p := by
  rw [levelAfterReport]
  cases hd : pinBit s.pd p <;> cases hu : pinBit s.pu p <;> simp_all

/-- Settles O26: the report flips the latch back, and inside the window the next RD is served from BUF. -/
theorem edgeReportedOnce : Obligations.EdgeReportedOnce := by
  intro p f s t n hinv hrm hexec ht hdata
  obtain ⟨hwm, -, hpull⟩ := pcr_bits hinv p
  rw [hrm, Bool.and_true] at hwm
  obtain ⟨u, frame, rfl⟩ := exec_rd_completed hexec ht
  have hlevel : pinBit u.buf p = !pinBit s.pu p := by
    rw [← reported_not_output hwm (pinBit u.buf p)]
    exact rdData_inj hdata
  have hbuf : pinBit (consumed p u) p = pinBit s.pu p := by
    rw [pinBit_consumed_eq, if_pos rfl, hlevel, ← frame.pu]
    exact levelAfterReport_away (by rw [frame.pd, frame.pu, hpull, hrm])
  refine ⟨hbuf, fun hw => ⟨_, exec_rd_cached (.inr ⟨rfl, hw⟩), ?_, rfl⟩⟩
  refine congrArg rdData ((reported_not_output ?_ _).trans hbuf)
  exact (congrArg (pinBit · p) frame.wm).trans hwm

/-! ### Physical reads inside the window (R121) -/

theorem busWrites_readEvents_le (s : State) : busWrites (readEvents s) ≤ 1 := by
  unfold readEvents
  split <;> exact Nat.le_refl 1

/-- RD leaves the state of ReadPin, with some response. -/
theorem exec_rd_eq {p : Pin} {f : Bool} {s t : State} (h : exec (.rd p f) s = .next t) :
    ∃ r, t = (readPin p f s).state.setResp r := by
  obtain ⟨u, -, rfl, hread, -⟩ | ⟨hread, -⟩ := exec_rd_cases h
  · exact ⟨_, by rw [hread]; rfl⟩
  · exact ⟨t.resp, by rw [hread]; rfl⟩

/-- RD puts nothing on the bus, or performs one physical read at NOW. -/
theorem exec_rd_bus {p : Pin} {f : Bool} {s t : State} (h : exec (.rd p f) s = .next t) :
    (t.trace = s.trace ∧ t.ts = s.ts) ∨ (t.trace = s.trace ++ readEvents s ∧ t.ts = s.now) := by
  obtain ⟨r, rfl⟩ := exec_rd_eq h
  exact readPin_bus p f s

theorem exec_rd_cfg {p : Pin} {f : Bool} {s t : State} (h : exec (.rd p f) s = .next t) : t.cfg = s.cfg := by
  obtain ⟨r, rfl⟩ := exec_rd_eq h
  exact (readPin_frame p f s).cfg

/-- Settles O28: after a physical read the second RD stands inside the window of its timestamp. -/
theorem debounceBoundsPhysicalReads : Obligations.DebounceBoundsPhysicalReads := by
  intro p q s t u n hn hnow hle hp hq
  have htrace := exec_rd_bus hq
  obtain ⟨hfirst, -⟩ | ⟨hfirst, hts⟩ := exec_rd_bus hp
  · rcases htrace with ⟨hsecond, -⟩ | ⟨hsecond, -⟩ <;> rw [hsecond, hfirst]
    · exact Nat.le_succ _
    · rw [busWrites_append]
      exact Nat.add_le_add_left (busWrites_readEvents_le _) _
  · have hw : windowExpired { t with now := n } = false := by
      rw [← Bool.not_eq_true, windowExpired_iff]
      simp only [exec_rd_cfg hp, hts]
      rw [elapsed_eq_sub_mod hn hnow]
      exact Nat.not_lt.2 hle
    rw [exec_rd_cached (.inr ⟨rfl, hw⟩)] at hq
    cases hq
    simp only [State.setResp_trace, State.setBuf_trace]
    rw [hfirst, busWrites_append]
    exact Nat.add_le_add_left (busWrites_readEvents_le s) _

/-! ### Writing, then reading (R120, R203) -/

/-- The ways WR and WRA end, once WBUF is written. -/
theorem commit_transmit_cases {s t : State}
    (h : commit ((transmit s).andThen fun acked s1 => .done (transmitStatus acked) s1) = .next t) :
    (s.nextWriteAnswer = .ack ∧ t = (s.afterWrite (outputByte s)).setResp (.ofStatus .ok)) ∨
    (s.nextWriteAnswer = .nack ∧ t = (s.afterWrite (outputByte s)).setResp (.ofStatus .deviceUnreachable)) ∨
    (s.nextWriteAnswer = .never ∧ t = (s.afterWrite (outputByte s)).setStuck) := by
  cases hw : s.nextWriteAnswer with
  | ack => exact .inl ⟨rfl, Host.Outcome.next.inj (h.symm.trans (commit_transmit_ack hw))⟩
  | nack => exact .inr (.inl ⟨rfl, Host.Outcome.next.inj (h.symm.trans (commit_transmit_nack hw))⟩)
  | never => exact .inr (.inr ⟨rfl, Host.Outcome.next.inj (h.symm.trans (commit_transmit_never hw))⟩)

/-- What WR and WRA leave alone once WBUF is written: everything but the bus record and answers, the response and the
stuck flag. -/
structure WriteFrame (s t : State) : Prop where
  cfg : t.cfg = s.cfg
  wm : t.wm = s.wm
  wmu : t.wmu = s.wmu
  rm : t.rm = s.rm
  pd : t.pd = s.pd
  pu : t.pu = s.pu
  buf : t.buf = s.buf
  wbuf : t.wbuf = s.wbuf
  ts : t.ts = s.ts
  phase : t.phase = s.phase
  now : t.now = s.now
  posIn : t.posIn = s.posIn
  host : t.host = s.host
  bridge : t.bridge = s.bridge
  trace : t.trace = s.trace ++ [.busWrite s.cfg.devAddr (outputByte s) s.nextWriteAnswer]

theorem commit_transmit_frame {s t : State}
    (h : commit ((transmit s).andThen fun acked s1 => .done (transmitStatus acked) s1) = .next t) :
    WriteFrame s t := by
  rcases commit_transmit_cases h with ⟨-, rfl⟩ | ⟨-, rfl⟩ | ⟨-, rfl⟩ <;> constructor <;> simp

theorem exec_wr_frame {p : Pin} {v : Bool} {s t : State} (h : exec (.wr p v) s = .next t) :
    WriteFrame (s.setWbuf (setPinBit s.wbuf p v)) t := commit_transmit_frame h

theorem exec_wra_frame {levels : Byte} {s t : State} (h : exec (.wra levels) s = .next t) :
    WriteFrame (s.setWbuf levels) t := commit_transmit_frame h

/-- Settles O29: the RD is served from the cache, and of an output pin it reports the WBUF bit. -/
theorem writeThenReadReturnsValue : Obligations.WriteThenReadReturnsValue := by
  intro p v s t n hwm hexec _ hw
  have frame := exec_wr_frame hexec
  refine ⟨_, exec_rd_cached (.inr ⟨rfl, hw⟩), congrArg rdData ?_, rfl⟩
  have hwm' : pinBit ({ t with now := n } : State).wm p = true := by simp [frame.wm, hwm]
  rw [reported_output hwm']
  simp [frame.wbuf]

/-- Settles O30: every pin reports its WBUF bit. -/
theorem bulkWriteThenReadRoundTrips : Obligations.BulkWriteThenReadRoundTrips := by
  intro levels s t u n hwm hwra hrda hu
  have frame := exec_wra_frame hwra
  obtain ⟨v, -, -, -, hdata, -⟩ := exec_rda_completed hrda hu
  refine byte_ext fun q => ?_
  have hq : pinBit ({ t with now := n } : State).wm q = true := by
    simp only [frame.wm, State.setWbuf_wm, hwm]
    revert q; decide
  rw [hdata q, reported_output hq]
  simp [frame.wbuf]

@[simp] theorem raise_buf (st : Status) (s : State) : (raise st s).buf = s.buf := rfl

@[simp] theorem configurePin_buf (p : Pin) (isOutput pullDown pullUp : Bool) (wmu : Byte) (s : State) :
    (configurePin p isOutput pullDown pullUp wmu s).buf = s.buf := rfl

/-- Settles O31: a pull-up pin over a BUF bit of 0 is latched, so it is served from the cache and flipped back. -/
theorem pullUpPinLatchedBeforeActivate : Obligations.PullUpPinLatchedBeforeActivate := by
  intro p lvl f s hbuf
  have hl : latched p (raise .ok (configurePin p false false true s.wmu s)) = true := by simp [latched, hbuf]
  refine ⟨_, _, rfl, exec_rd_cached (.inl hl), ?_, rfl, ?_⟩
  · rw [reported_not_output (by simp)]
    simp [hbuf, Response.ofData, rdData]
  · rw [State.setResp_buf, State.setBuf_buf, pinBit_consumed_eq]
    simp [hbuf, levelAfterReport]

end Sys2Proof.Machine

namespace Sys2Proof.Machine

/-! ### Ports no read looks at: the response and POS_IN (R38, R78) -/

/-- The same part of a command in a state seen through `g`. -/
def Progress.mapState {α : Type} (g : State → State) : Progress α → Progress α
  | .done a s => .done a (g s)
  | .stuck s => .stuck (g s)

theorem Progress.andThen_mapState {α β : Type} {g : State → State} {y y' : Progress α}
    {k k' : α → State → Progress β} (hy : y' = y.mapState g) (hk : ∀ a s, k' a (g s) = (k a s).mapState g) :
    y'.andThen k' = (y.andThen k).mapState g := by
  rw [hy]
  cases y with
  | done a s => exact hk a s
  | stuck s => rfl

/-- The state with another response and another POS_IN. -/
def State.withPorts (r : Response → Response) (x : Nat → Nat) (s : State) : State :=
  { s with resp := r s.resp, posIn := x s.posIn }

section
variable (r : Response → Response) (x : Nat → Nat) (s : State)

theorem State.withPorts_takeWriteAnswer :
    (s.withPorts r x).takeWriteAnswer = s.takeWriteAnswer.withPorts r x := by
  have hw : (s.withPorts r x).writeAnswers = s.writeAnswers := rfl
  unfold State.takeWriteAnswer
  rw [hw]
  split <;> rfl

theorem State.withPorts_takeReadAnswer :
    (s.withPorts r x).takeReadAnswer = s.takeReadAnswer.withPorts r x := by
  have hr : (s.withPorts r x).readAnswers = s.readAnswers := rfl
  unfold State.takeReadAnswer
  rw [hr]
  split <;> rfl

theorem State.withPorts_afterWrite (b : Byte) : (s.withPorts r x).afterWrite b = (s.afterWrite b).withPorts r x := by
  rw [State.afterWrite, State.withPorts_takeWriteAnswer]
  rfl

theorem State.withPorts_afterRead : (s.withPorts r x).afterRead = s.afterRead.withPorts r x := by
  rw [State.afterRead, State.withPorts_takeReadAnswer]
  rfl

theorem busWrite_withPorts (b : Byte) :
    busWrite b (s.withPorts r x) = (busWrite b s).mapState (State.withPorts r x) := by
  have hw : (s.withPorts r x).nextWriteAnswer = s.nextWriteAnswer := rfl
  unfold busWrite
  rw [hw, State.withPorts_afterWrite]
  cases s.nextWriteAnswer <;> rfl

theorem busRead_withPorts : busRead (s.withPorts r x) = (busRead s).mapState (State.withPorts r x) := by
  have hr : (s.withPorts r x).nextReadAnswer = s.nextReadAnswer := rfl
  unfold busRead
  rw [hr, State.withPorts_afterRead]
  cases s.nextReadAnswer <;> rfl

theorem transmit_withPorts : transmit (s.withPorts r x) = (transmit s).mapState (State.withPorts r x) :=
  busWrite_withPorts r x s (outputByte s)

theorem mergeByte_withPorts (b : Byte) : mergeByte b (s.withPorts r x) = (mergeByte b s).withPorts r x := by
  rw [mergeByte_eq, mergeByte_eq]
  rfl

theorem consumeLatch_withPorts (p : Pin) : consumeLatch p (s.withPorts r x) = (consumeLatch p s).withPorts r x := by
  rw [consumeLatch_eq, consumeLatch_eq]
  rfl

theorem physicalRead_withPorts :
    physicalRead (s.withPorts r x) = (physicalRead s).mapState (State.withPorts r x) := by
  refine Progress.andThen_mapState (busWrite_withPorts r x (s.setTs s.now) s.rm) fun acked s1 => ?_
  cases acked with
  | false => rfl
  | true =>
    rw [if_pos rfl, if_pos rfl]
    refine Progress.andThen_mapState (busRead_withPorts r x s1) fun got s2 => ?_
    cases got with
    | none => rfl
    | some b => exact congrArg (Progress.done ()) (mergeByte_withPorts r x s2 b)

theorem readPin_withPorts (p : Pin) (f : Bool) :
    readPin p f (s.withPorts r x) = (readPin p f s).mapState (State.withPorts r x) := by
  have hgo : (!latched p (s.withPorts r x) && (f || windowExpired (s.withPorts r x))) =
      (!latched p s && (f || windowExpired s)) := rfl
  have hend : ∀ s1 : State, (Progress.done (pinValue p (s1.withPorts r x)) (consumeLatch p (s1.withPorts r x))) =
      (Progress.done (pinValue p s1) (consumeLatch p s1)).mapState (State.withPorts r x) := fun s1 => by
    rw [consumeLatch_withPorts]
    rfl
  unfold readPin
  rw [hgo]
  split
  · exact Progress.andThen_mapState (physicalRead_withPorts r x s) fun _ s1 => hend s1
  · exact hend s

theorem readPins_withPorts (l : List Pin) (d : Byte) :
    readPins l d (s.withPorts r x) = ((readPins l d s).1, (readPins l d s).2.withPorts r x) := by
  induction l generalizing d s with
  | nil => rfl
  | cons i rest ih =>
    rw [readPins_cons, readPins_cons, consumeLatch_withPorts]
    exact ih _ _

end

/-- A command ends the same whatever stands on POS_IN, if its parts do. -/
theorem commit_mapState {y y' : Progress Response} {x : Nat} {t : State}
    (hy : y' = y.mapState (State.withPorts id fun _ => x)) (h : commit y = .next t) :
    commit y' = .next { t with posIn := x } := by
  obtain rfl := Host.Outcome.next.inj h
  rw [hy]
  cases y <;> rfl

/-- Settles O59: every part of a command but the response of ENC works alike in the state with another POS_IN. -/
theorem posInIgnoredByOtherCommands : Obligations.PosInIgnoredByOtherCommands := by
  intro i s t x hi h
  cases i with
  | enc a b rev => exact absurd rfl hi
  | cfg p dir lvl => cases dir <;> cases h <;> rfl
  | rd p force =>
    exact commit_mapState
      (Progress.andThen_mapState (readPin_withPorts id (fun _ => x) s p force) fun _ _ => rfl) h
  | wr p v =>
    exact commit_mapState (Progress.andThen_mapState
      (transmit_withPorts id (fun _ => x) (s.setWbuf (setPinBit s.wbuf p v))) fun _ _ => rfl) h
  | wra levels =>
    exact commit_mapState
      (Progress.andThen_mapState (transmit_withPorts id (fun _ => x) (s.setWbuf levels)) fun _ _ => rfl) h
  | rda =>
    have hw : windowExpired { s with posIn := x } = windowExpired s := rfl
    refine commit_mapState (Progress.andThen_mapState ?_ fun _ s1 => ?_) h
    · rw [hw]
      split
      · exact physicalRead_withPorts id (fun _ => x) s
      · rfl
    · rw [readPins_withPorts]
      rfl
  | act =>
    refine commit_mapState ?_ h
    dsimp only
    split
    · rfl
    · refine Progress.andThen_mapState (busWrite_withPorts id (fun _ => x) s (initialByte s)) fun acked s1 => ?_
      cases acked <;> rfl

end Sys2Proof.Machine

namespace Sys2Proof.Machine

/-! ### ENC as two forced RDs (R142, R146) -/

/-- A completed RD is a completed ReadPin with the response on top. -/
theorem readPin_of_exec_rd {p : Pin} {f : Bool} {s t : State} (h : exec (.rd p f) s = .next t)
    (ht : t.stuck = false) :
    ∃ v u, readPin p f s = .done v u ∧ t = u.setResp (.ofData (rdData v)) := by
  obtain ⟨u, -, rfl, hread, -⟩ | ⟨-, hstuck⟩ := exec_rd_cases h
  · exact ⟨_, _, hread, rfl⟩
  · rw [ht] at hstuck; cases hstuck

/-- A stuck RD is a stuck ReadPin. -/
theorem readPin_of_exec_rd_stuck {p : Pin} {f : Bool} {s t : State} (h : exec (.rd p f) s = .next t)
    (hs : s.stuck = false) (ht : t.stuck = true) : readPin p f s = .stuck t := by
  obtain ⟨u, -, rfl, -, hu⟩ | ⟨hread, -⟩ := exec_rd_cases h
  · rw [State.setResp_stuck, State.setBuf_stuck, hu, hs] at ht; cases ht
  · exact hread

/-- No read looks at the response. -/
theorem readPin_setResp (p : Pin) (f : Bool) (s : State) (r : Response) :
    readPin p f (s.setResp r) = (readPin p f s).mapState (·.setResp r) :=
  readPin_withPorts (fun _ => r) id s p f

theorem readPin_setResp_done {p : Pin} {f v : Bool} {s t : State} {r : Response}
    (h : readPin p f (s.setResp r) = .done v t) : ∃ u, readPin p f s = .done v u ∧ t = u.setResp r := by
  rw [readPin_setResp] at h
  cases hread : readPin p f s <;> rw [hread] at h <;> cases h
  exact ⟨_, rfl, rfl⟩

theorem readPin_setResp_stuck {p : Pin} {f : Bool} {s t : State} {r : Response}
    (h : readPin p f (s.setResp r) = .stuck t) : ∃ u, readPin p f s = .stuck u ∧ t = u.setResp r := by
  rw [readPin_setResp] at h
  cases hread : readPin p f s <;> rw [hread] at h <;> cases h
  exact ⟨_, rfl, rfl⟩

theorem pinBit_rdData (v : Bool) : pinBit (rdData v) 0 = v := by cases v <;> decide

/-- Settles O33: the two RDs are the two reads of the poll, and the response the first one leaves is looked at by
nothing. -/
theorem encIsTwoForcedReads : Obligations.EncIsTwoForcedReads := by
  intro a b rev s s1 s2 hA h1 hB h2
  obtain ⟨curA, u1, hreadA, rfl⟩ := readPin_of_exec_rd hA h1
  obtain ⟨curB, u2, hreadB, rfl⟩ := readPin_of_exec_rd hB h2
  obtain ⟨v2, hreadB', rfl⟩ := readPin_setResp_done hreadB
  have hlevelA : pinBit (u1.setResp (.ofData (rdData curA))).resp.data 0 = curA := pinBit_rdData curA
  have hlevelB : pinBit ((v2.setResp (.ofData (rdData curA))).setResp (.ofData (rdData curB))).resp.data 0 = curB :=
    pinBit_rdData curB
  rw [hlevelA, hlevelB]
  exact encDecodesForcedReads a b rev curA curB s u1 v2 hreadA hreadB'

theorem exec_enc_of_first_stuck {a : Pin} {s t : State} (b : Pin) (rev : Bool)
    (h : readPin a true (emitDetach s) = .stuck t) : exec (.enc a b rev) s = .next t := by
  simp only [exec, execEnc, h, Progress.stuck_andThen, commit_eq, Progress.settle_stuck]

theorem exec_enc_of_second_stuck {a b : Pin} {curA : Bool} {s s1 t : State} (rev : Bool)
    (hA : readPin a true (emitDetach s) = .done curA s1) (hB : readPin b true s1 = .stuck t) :
    exec (.enc a b rev) s = .next t := by
  simp only [exec, execEnc, hA, hB, Progress.done_andThen, Progress.stuck_andThen, commit_eq,
    Progress.settle_stuck]

/-- A read that is stuck has merged nothing (R57). -/
theorem buf_of_physicalRead_stuck {s t : State} (h : physicalRead s = .stuck t) : t.buf = s.buf := by
  rcases physicalRead_cases s with ⟨-, h'⟩ | ⟨-, h'⟩ | ⟨-, -, h'⟩ | ⟨-, -, h'⟩ | ⟨r, -, -, h'⟩ <;>
    rw [h'] at h <;> cases h <;> simp [afterPrepare]

theorem buf_of_readPin_stuck {p : Pin} {f : Bool} {s t : State} (h : readPin p f s = .stuck t) :
    t.buf = s.buf := by
  rcases readPin_cases p f s with h' | ⟨u, -, -, h'⟩ | ⟨u, hu, -, h'⟩ <;> rw [h'] at h <;> cases h
  exact buf_of_physicalRead_stuck hu

/-- Settles O49: a stuck RD is a stuck read of the poll. -/
theorem encSticksInEitherRead : Obligations.EncSticksInEitherRead := by
  intro a b rev s s1 hs hA
  have frameA := readPin_frame a true (emitDetach s)
  refine ⟨fun h1 => ?_, fun s2 h1 hB h2 => ?_⟩
  · have hreadA : readPin a true (emitDetach s) = .stuck s1 := readPin_of_exec_rd_stuck hA hs h1
    rw [hreadA] at frameA
    exact ⟨exec_enc_of_first_stuck b rev hreadA, frameA.resp, frameA.phase⟩
  · obtain ⟨curA, u1, hreadA, rfl⟩ := readPin_of_exec_rd hA h1
    obtain ⟨u2, hreadB, rfl⟩ := readPin_setResp_stuck (readPin_of_exec_rd_stuck hB h1 h2)
    have frameB := readPin_frame b true u1
    have hreadA' : readPin a true (emitDetach s) = .done curA u1 := hreadA
    rw [hreadA'] at frameA
    rw [hreadB] at frameB
    have frame : ReadFrame (emitDetach s) u2 := frameA.trans frameB
    have hresp : s.resp = u2.resp := frame.resp.symm
    have hbuf : u2.buf = u1.buf := buf_of_readPin_stuck hreadB
    refine ⟨?_, frame.phase, hbuf, frame.bridge⟩
    rw [exec_enc_of_second_stuck rev hreadA hreadB, hresp]
    rfl

/-! ### ENC of latched pins (R113, R142) -/

/-- A latched pin is an input away from its default, so a read reports its BUF bit and flips it back. -/
theorem readPin_latched {p : Pin} {s : State} (hinv : s.pcrInv) (hl : latched p s = true) (f : Bool) :
    readPin p f s = .done (pinBit s.buf p) (s.setBuf (setPinBit s.buf p (pinBit s.pu p))) := by
  obtain ⟨hrm, haway⟩ := (latchedIffInputAwayFromDefault p s hinv).1 hl
  obtain ⟨hwm, -, hpull⟩ := pcr_bits hinv p
  rw [hrm, Bool.and_true] at hwm
  have hlevel : levelAfterReport s p (pinBit s.buf p) = pinBit s.pu p := by
    rw [Bool.eq_not_of_ne haway, levelAfterReport_away (hpull.trans hrm)]
  have hconsumed : consumed p s = setPinBit s.buf p (pinBit s.pu p) :=
    byte_ext fun q => by rw [pinBit_consumed_eq, pinBit_setPinBit, hlevel]
  rw [readPin_cached (.inl hl), pinValue_eq, reported_not_output hwm, consumeLatch_eq, hconsumed]

/-- Reading a latched pin consumes its own latch alone, so another latched pin is still latched after it. -/
theorem readPin_both_latched {a b : Pin} {s : State} (hab : a ≠ b) (hinv : s.pcrInv) (ha : latched a s = true)
    (hb : latched b s = true) (f : Bool) :
    ∃ s1, readPin a f s = .done (pinBit s.buf a) s1 ∧ readPin b f s1 = .done (pinBit s.buf b)
      (s.setBuf (setPinBit (setPinBit s.buf a (pinBit s.pu a)) b (pinBit s.pu b))) := by
  refine ⟨_, readPin_latched hinv ha f, ?_⟩
  have hbuf : pinBit (setPinBit s.buf a (pinBit s.pu a)) b = pinBit s.buf b := by simp [hab.symm]
  have hlB : latched b (s.setBuf (setPinBit s.buf a (pinBit s.pu a))) = true := by
    rw [latched, State.setBuf_buf, hbuf]
    exact hb
  refine (readPin_latched (s := s.setBuf (setPinBit s.buf a (pinBit s.pu a))) hinv hlB f).trans ?_
  rw [State.setBuf_buf, hbuf]
  rfl

/-- Settles O34: both reads of the poll are served from the cache. -/
theorem encOfLatchedPinsUsesNoBus : Obligations.EncOfLatchedPinsUsesNoBus := by
  intro a b rev s hab hinv ha hb
  obtain ⟨s1, hA, hB⟩ := readPin_both_latched (s := emitDetach s) hab hinv ha hb true
  obtain ⟨t, hexec, ht, hphase⟩ := encDecodesForcedReads a b rev _ _ s _ _ hA hB
  have hbuf : t.buf = setPinBit (setPinBit s.buf a (pinBit s.pu a)) b (pinBit s.pu b) := by rw [ht]; rfl
  refine ⟨t, hexec, ?_, fun q => ?_, fun q => ?_⟩
  · rw [ht]
    simp
  · rw [hbuf, pinBit_setPinBit, pinBit_setPinBit]
    by_cases hqb : q = b <;> by_cases hqa : q = a <;> simp [hqb, hqa, hab]
  · rw [hphase, emitDetach_buf]
    by_cases hqb : q = b <;> by_cases hqa : q = a <;> simp [hqb, hqa, hab]

/-! ### ENC on a bus that returns (R52, R53) -/

/-- The next `n` answers of a list are settled, and none of them is `never`. -/
def Settled {α : Type} (never : α) (n : Nat) (l : List α) : Prop := n ≤ l.length ∧ never ∉ l.take n

section
variable {α : Type} {never a : α} {n : Nat} {l : List α}

theorem Settled.mono (h : Settled never (n + 1) l) : Settled never n l :=
  ⟨Nat.le_of_succ_le h.1, fun hmem => h.2 (List.take_subset_take_left l (Nat.le_succ n) hmem)⟩

theorem Settled.cons_iff : Settled never (n + 1) (a :: l) ↔ never ≠ a ∧ Settled never n l := by
  simp only [Settled, List.length_cons, List.take_succ_cons, List.mem_cons, not_or, Nat.add_le_add_iff_right]
  exact and_left_comm

theorem Settled.not_nil : ¬ Settled never (n + 1) [] := fun h => Nat.not_succ_le_zero n h.1

end

section
variable {n : Nat} {s : State}

theorem Settled.nextWriteAnswer (h : Settled .never (n + 1) s.writeAnswers) :
    .never ≠ s.nextWriteAnswer ∧ Settled .never n s.takeWriteAnswer.writeAnswers := by
  unfold State.nextWriteAnswer State.takeWriteAnswer
  split
  · next hw => rw [hw] at h; exact Settled.cons_iff.1 h
  · next hw => rw [hw] at h; exact absurd h Settled.not_nil

theorem Settled.nextReadAnswer (h : Settled .never (n + 1) s.readAnswers) :
    .never ≠ s.nextReadAnswer ∧ Settled .never n s.takeReadAnswer.readAnswers := by
  unfold State.nextReadAnswer State.takeReadAnswer
  split
  · next hr => rw [hr] at h; exact Settled.cons_iff.1 h
  · next hr => rw [hr] at h; exact absurd h Settled.not_nil

/-- The next `n` transactions of each kind return. -/
def BusReturns (n : Nat) (s : State) : Prop :=
  Settled .never n s.writeAnswers ∧ Settled .never n s.readAnswers

/-- A physical read takes at most one answer of each kind. -/
theorem BusReturns.physicalRead (h : BusReturns (n + 1) s) :
    ∃ t, physicalRead s = .done () t ∧ BusReturns n t := by
  obtain ⟨hsettledW, hsettledR⟩ := h
  obtain ⟨hw, hwrites⟩ := hsettledW.nextWriteAnswer
  obtain ⟨hr, hreads⟩ := hsettledR.nextReadAnswer
  have hreadsAfter : (afterPrepare s).afterRead.readAnswers = s.takeReadAnswer.readAnswers := by
    rw [State.afterRead_readAnswers]
    exact (State.takeReadAnswer_congr (by simp [afterPrepare]) (by simp [afterPrepare])).1
  have hwritesAfter : (afterPrepare s).writeAnswers = s.takeWriteAnswer.writeAnswers := by
    simp [afterPrepare, State.setTs_takeWriteAnswer]
  have hboth : BusReturns n (afterPrepare s).afterRead := by
    rw [BusReturns, State.afterRead_writeAnswers, hwritesAfter, hreadsAfter]
    exact ⟨hwrites, hreads⟩
  rcases physicalRead_cases s with ⟨h', -⟩ | ⟨-, h'⟩ | ⟨-, h', -⟩ | ⟨-, -, h'⟩ | ⟨r, -, -, h'⟩
  · exact absurd h'.symm hw
  · refine ⟨_, h', ?_⟩
    rw [BusReturns, hwritesAfter]
    exact ⟨hwrites, by simpa [afterPrepare] using hsettledR.mono⟩
  · exact absurd h'.symm hr
  · exact ⟨_, h', hboth⟩
  · exact ⟨_, h', by rw [mergeByte_eq]; exact hboth⟩

theorem BusReturns.readPin (h : BusReturns (n + 1) s) (p : Pin) (f : Bool) :
    ∃ v t, readPin p f s = .done v t ∧ t.stuck = s.stuck ∧ BusReturns n t := by
  obtain ⟨u, hu, hreturns⟩ := h.physicalRead
  rcases readPin_cases p f s with h' | ⟨t, ht, hstuck, h'⟩ | ⟨t, ht, -, -⟩
  · exact ⟨_, _, h', by rw [consumeLatch_eq]; rfl, by rw [consumeLatch_eq]; exact ⟨h.1.mono, h.2.mono⟩⟩
  · rw [hu] at ht
    cases ht
    exact ⟨_, _, h', by rw [consumeLatch_eq]; exact hstuck, by rw [consumeLatch_eq]; exact hreturns⟩
  · rw [hu] at ht
    cases ht

end

/-- Settles O35: each read takes at most one answer of each kind, so both return. -/
theorem encCompletesWhenBusReturns : Obligations.EncCompletesWhenBusReturns := by
  intro a b rev s w1 w2 r1 r2 ws rs hs hw hr hw1 hw2 hr1 hr2
  have hreturns : BusReturns 2 (emitDetach s) := by
    rw [BusReturns, emitDetach_writeAnswers, emitDetach_readAnswers, hw, hr]
    simp only [Settled.cons_iff]
    exact ⟨⟨hw1.symm, hw2.symm, Nat.zero_le _, by simp⟩, ⟨hr1.symm, hr2.symm, Nat.zero_le _, by simp⟩⟩
  obtain ⟨curA, s1, hA, h1, hreturns1⟩ := hreturns.readPin a true
  obtain ⟨curB, s2, hB, h2, -⟩ := hreturns1.readPin b true
  obtain ⟨t, hexec, ht, hphase⟩ := encDecodesForcedReads a b rev curA curB s s1 s2 hA hB
  have hstuck : s2.stuck = false := h2.trans (h1.trans hs)
  exact ⟨curA, curB, t, hexec, by rw [ht]; exact hstuck, by rw [ht], hphase⟩

/-- Settles O46: REATTACH attaches the last attachment whether or not DETACH found one attached. -/
theorem encReattachesUnconditionally : Obligations.EncReattachesUnconditionally := by
  intro a b rev s t h ht
  obtain ⟨-, -, -, hbridge⟩ := exec_enc_events h ht
  rw [hbridge]
  exact ⟨by simp, by simp [Bridge.reattach_attached]⟩

/-! ### A bus that never returns (R57, R207) -/

theorem emitDetach_takeWriteAnswer (s : State) :
    (emitDetach s).takeWriteAnswer = emitDetach s.takeWriteAnswer := by
  unfold State.takeWriteAnswer
  rw [emitDetach_writeAnswers]
  split <;> rfl

theorem emitDetach_takeReadAnswer (s : State) : (emitDetach s).takeReadAnswer = emitDetach s.takeReadAnswer := by
  unfold State.takeReadAnswer
  rw [emitDetach_readAnswers]
  split <;> rfl

/-- The state a physical read leaves that is stuck in its BusWrite (R112). -/
theorem physicalRead_stuck_in_write {s : State} (hw : s.nextWriteAnswer = .never) :
    physicalRead s = .stuck { s.takeWriteAnswer with
      ts := s.now
      trace := s.trace ++ [.busWrite s.cfg.devAddr s.rm .never]
      stuck := true } := by
  rw [physicalRead_write_never hw, afterPrepare_eq, hw]
  rfl

/-- The state a physical read leaves that is stuck in its BusRead (R112). -/
theorem physicalRead_stuck_in_read {s : State} (hw : s.nextWriteAnswer = .ack) (hr : s.nextReadAnswer = .never) :
    physicalRead s = .stuck { s.takeWriteAnswer.takeReadAnswer with
      ts := s.now
      trace := s.trace ++ [.busWrite s.cfg.devAddr s.rm .ack, .busRead s.cfg.devAddr .never]
      stuck := true } := by
  rw [physicalRead_read_never hw hr, afterPrepare_afterRead_eq hw, hr]
  rfl

/-- Settles O48: the read is stuck in a known state, and RD, RDA and ENC stay there. -/
theorem readThatNeverReturnsSticks : Obligations.ReadThatNeverReturnsSticks := by
  intro s w r sticksAs
  refine ⟨fun p f hl hgo => ⟨fun hw => ?_, fun hw hr => ?_⟩, fun hx => ⟨fun hw => ?_, fun hw hr => ?_⟩,
    fun a b rev hl => ⟨fun hw => ?_, fun hw hr => ?_⟩⟩
  · exact exec_rd_of_stuck (readPin_of_physicalRead_stuck hl hgo (physicalRead_stuck_in_write hw))
  · exact exec_rd_of_stuck (readPin_of_physicalRead_stuck hl hgo (physicalRead_stuck_in_read hw hr))
  · exact exec_rda_of_stuck hx (physicalRead_stuck_in_write hw)
  · exact exec_rda_of_stuck hx (physicalRead_stuck_in_read hw hr)
  · rw [exec_enc_of_first_stuck b rev (readPin_of_physicalRead_stuck (s := emitDetach s) hl (.inl rfl)
      (physicalRead_stuck_in_write hw)), emitDetach_takeWriteAnswer]
    simp [w]
  · rw [exec_enc_of_first_stuck b rev (readPin_of_physicalRead_stuck (s := emitDetach s) hl (.inl rfl)
      (physicalRead_stuck_in_read hw hr)), emitDetach_takeWriteAnswer, emitDetach_takeReadAnswer]
    simp [r]

/-- What a command that is stuck in its first transaction, or in the read after it, leaves alone (R207). -/
structure StuckFrame (s t : State) : Prop where
  stuck : t.stuck = true
  resp : t.resp = s.resp
  buf : t.buf = s.buf
  phase : t.phase = s.phase
  wm : t.wm = s.wm
  wmu : t.wmu = s.wmu
  rm : t.rm = s.rm
  pd : t.pd = s.pd
  pu : t.pu = s.pu

theorem afterWrite_setStuck_frame (s : State) (b : Byte) : StuckFrame s (s.afterWrite b).setStuck := by
  constructor <;> simp

theorem setWbuf_afterWrite_setStuck_frame (s : State) (wb b : Byte) :
    StuckFrame s ((s.setWbuf wb).afterWrite b).setStuck := by
  constructor <;> simp

/-- A first read that never returns leaves PhysicalRead stuck. -/
theorem physicalRead_of_firstReadNeverReturns {s : State} (h : firstReadNeverReturns s) :
    ∃ t, physicalRead s = .stuck t ∧ StuckFrame s t := by
  obtain ⟨t, ht, hstuck⟩ : ∃ t, physicalRead s = .stuck t ∧ t.stuck = true := by
    obtain hw | ⟨hw, hr⟩ := h
    · exact ⟨_, physicalRead_write_never hw, rfl⟩
    · exact ⟨_, physicalRead_read_never hw hr, rfl⟩
  have frame := physicalRead_frame s
  rw [ht] at frame
  exact ⟨t, ht, hstuck, frame.resp, buf_of_physicalRead_stuck ht, frame.phase, frame.wm, frame.wmu, frame.rm,
    frame.pd, frame.pu⟩

/-- A stuck block accepts no further command (R57). -/
theorem step_stuck_command {t : State} (h : t.stuck = true) (w : CmdWord) (pos adv : Nat)
    (rest : List HostAction) : step { t with host := .command w pos adv :: rest } = .fault .stuckOnBus := by
  simp [step, perform, h]

/-- Settles O47: every command with a bus transaction stays where its first transaction, or the read after it, is
stuck. -/
theorem busThatNeverReturnsSticks : Obligations.BusThatNeverReturnsSticks := by
  intro i s hnever
  obtain ⟨t, hexec, frame⟩ : ∃ t, exec i s = .next t ∧ StuckFrame s t := by
    cases i with
    | cfg p dir lvl => exact hnever.elim
    | act =>
      obtain ⟨hw, hconf⟩ := hnever
      exact ⟨_, exec_act_never hw hconf, afterWrite_setStuck_frame s _⟩
    | wr p v =>
      exact ⟨_, commit_transmit_never (s := s.setWbuf (setPinBit s.wbuf p v)) hnever,
        setWbuf_afterWrite_setStuck_frame s _ _⟩
    | wra levels =>
      exact ⟨_, commit_transmit_never (s := s.setWbuf levels) hnever, setWbuf_afterWrite_setStuck_frame s _ _⟩
    | rd p f =>
      obtain ⟨hfirst, hl, hgo⟩ := hnever
      obtain ⟨t, ht, frame⟩ := physicalRead_of_firstReadNeverReturns hfirst
      exact ⟨t, exec_rd_of_stuck (readPin_of_physicalRead_stuck hl hgo ht), frame⟩
    | rda =>
      obtain ⟨hfirst, hw⟩ := hnever
      obtain ⟨t, ht, frame⟩ := physicalRead_of_firstReadNeverReturns hfirst
      exact ⟨t, exec_rda_of_stuck hw ht, frame⟩
    | enc a b rev =>
      obtain ⟨hfirst, hl⟩ := hnever
      obtain ⟨t, ht, frame⟩ := physicalRead_of_firstReadNeverReturns (s := emitDetach s) hfirst
      exact ⟨t, exec_enc_of_first_stuck b rev (readPin_of_physicalRead_stuck hl (.inl rfl) ht),
        ⟨frame.stuck, frame.resp, frame.buf, frame.phase, frame.wm, frame.wmu, frame.rm, frame.pd, frame.pu⟩⟩
  exact ⟨t, hexec, frame.stuck, frame.resp, frame.buf, frame.phase, frame.wm, frame.wmu, frame.rm, frame.pd,
    frame.pu, step_stuck_command frame.stuck⟩

end Sys2Proof.Machine

namespace Sys2Proof.Machine

/-! ### What each command puts on the bus (R50, R54, R112) -/

/-- An acknowledged write before a record that is in order by itself does no harm. -/
theorem readsFollowAck_mono {acked : Bool} {l : List PortEvent} (h : readsFollowAck false l = true) :
    readsFollowAck acked l = true := by
  cases l with
  | nil => rfl
  | cons e rest =>
    cases e with
    | busWrite addr b answer => exact h
    | busRead addr answer => cases h
    | detach => exact h
    | reattach => exact h

/-- Two records in a row, where the second one is in order by itself. -/
theorem readsFollowAck_append {acked : Bool} {l m : List PortEvent} (hl : readsFollowAck acked l = true)
    (hm : readsFollowAck false m = true) : readsFollowAck acked (l ++ m) = true := by
  induction l generalizing acked with
  | nil => exact readsFollowAck_mono hm
  | cons e rest ih =>
    cases e with
    | busWrite addr b answer => exact ih hl
    | busRead addr answer =>
      obtain ⟨hacked, hrest⟩ := Bool.and_eq_true_iff.1 hl
      exact Bool.and_eq_true_iff.2 ⟨hacked, ih hrest⟩
    | detach => exact ih hl
    | reattach => exact ih hl

theorem busWrites_cons (e : PortEvent) (l : List PortEvent) :
    busWrites (e :: l) = busWrites l + e.isBusWrite.toNat := by
  cases e <;> simp [busWrites, List.countP_cons, PortEvent.isBusWrite]

theorem busReads_cons (e : PortEvent) (l : List PortEvent) :
    busReads (e :: l) = busReads l + (e.isBus && !e.isBusWrite).toNat := by
  cases e <;> simp [busReads, PortEvent.isBus, PortEvent.isBusWrite]

/-- Each BusRead has used up the acknowledged BusWrite before it. -/
theorem busReads_le_of_readsFollowAck {acked : Bool} {l : List PortEvent} (h : readsFollowAck acked l = true) :
    busReads l ≤ busWrites l + acked.toNat := by
  induction l generalizing acked with
  | nil => exact Nat.zero_le _
  | cons e rest ih =>
    rw [busReads_cons, busWrites_cons]
    cases e with
    | busWrite addr b answer =>
      have hrest : busReads rest ≤ busWrites rest + (answer == .ack).toNat := ih h
      have hack := Bool.toNat_le (answer == .ack)
      change busReads rest + 0 ≤ busWrites rest + 1 + acked.toNat
      omega
    | busRead addr answer =>
      obtain ⟨rfl, hrest⟩ := Bool.and_eq_true_iff.1 h
      have hle : busReads rest ≤ busWrites rest + 0 := ih hrest
      change busReads rest + 1 ≤ busWrites rest + 0 + 1
      omega
    | detach =>
      have hrest : busReads rest ≤ busWrites rest + 0 := ih h
      exact hrest.trans (Nat.le_add_right _ _)
    | reattach =>
      have hrest : busReads rest ≤ busWrites rest + 0 := ih h
      exact hrest.trans (Nat.le_add_right _ _)

/-- From `s` to `t` the ports saw at most `n` BusWrites, all to DEV_ADDR, and no BusRead without an acknowledged
BusWrite right before it. -/
def Traffic (n : Nat) (s t : State) : Prop :=
  ∃ new : List PortEvent, t.trace = s.trace ++ new ∧ new.all (·.addressedTo s.cfg.devAddr) = true ∧
    readsFollowAck false new = true ∧ busWrites new ≤ n

section
variable {n m : Nat} {s t u : State}

theorem Traffic.of_trace_eq (h : t.trace = s.trace) : Traffic n s t :=
  ⟨[], by simp [h], rfl, rfl, Nat.zero_le n⟩

theorem Traffic.of_event {e : PortEvent} (h : t.trace = s.trace ++ [e]) (hbus : e.isBus = false) :
    Traffic n s t := by
  cases e with
  | busWrite addr b answer => cases hbus
  | busRead addr answer => cases hbus
  | detach => exact ⟨[.detach], h, rfl, rfl, Nat.zero_le n⟩
  | reattach => exact ⟨[.reattach], h, rfl, rfl, Nat.zero_le n⟩

theorem Traffic.of_write {b : Byte} {answer : WriteAnswer}
    (h : t.trace = s.trace ++ [.busWrite s.cfg.devAddr b answer]) : Traffic 1 s t :=
  ⟨_, h, by simp [PortEvent.addressedTo], rfl, Nat.le_refl 1⟩

theorem Traffic.of_read (h : t.trace = s.trace ++ readEvents s) : Traffic 1 s t := by
  refine ⟨_, h, ?_, ?_, busWrites_readEvents_le s⟩ <;> unfold readEvents <;> split <;>
    simp [PortEvent.addressedTo, readsFollowAck]

theorem Traffic.mono (h : Traffic n s t) (hle : n ≤ m) : Traffic m s t := by
  obtain ⟨new, htrace, haddr, hacks, hcount⟩ := h
  exact ⟨new, htrace, haddr, hacks, hcount.trans hle⟩

theorem Traffic.trans (hcfg : t.cfg = s.cfg) (hst : Traffic n s t) (htu : Traffic m t u) : Traffic (n + m) s u := by
  obtain ⟨new, htrace, haddr, hacks, hle⟩ := hst
  obtain ⟨new', htrace', haddr', hacks', hle'⟩ := htu
  refine ⟨new ++ new', by rw [htrace', htrace, List.append_assoc], ?_, readsFollowAck_append hacks hacks', ?_⟩
  · rw [List.all_append, haddr, ← hcfg, haddr']
    rfl
  · rw [busWrites_append]
    exact Nat.add_le_add hle hle'

/-- The counts of R54. -/
theorem Traffic.counts (h : Traffic n s t) : ∃ new : List PortEvent, t.trace = s.trace ++ new ∧
    busReads new ≤ busWrites new ∧ busWrites new ≤ n := by
  obtain ⟨new, htrace, -, hacks, hle⟩ := h
  exact ⟨new, htrace, busReads_le_of_readsFollowAck hacks, hle⟩

end

/-! ### What up to `n` reads leave alone -/

/-- `t` comes from `s` by reads with at most `n` physical ones among them. -/
structure Reads (n : Nat) (s t : State) : Prop where
  frame : ReadFrame s t
  traffic : Traffic n s t
  ts : t.ts = s.ts ∨ t.ts = s.now

theorem Reads.trans {n m : Nat} {s t u : State} (hst : Reads n s t) (htu : Reads m t u) : Reads (n + m) s u := by
  refine ⟨hst.frame.trans htu.frame, hst.traffic.trans hst.frame.cfg htu.traffic, ?_⟩
  rcases htu.ts with h | h
  · rw [h]; exact hst.ts
  · rw [h, hst.frame.now]; exact .inr rfl

/-- No physical read, or one. -/
theorem Reads.of_bus {s t : State} (frame : ReadFrame s t)
    (h : (t.trace = s.trace ∧ t.ts = s.ts) ∨ (t.trace = s.trace ++ readEvents s ∧ t.ts = s.now)) :
    Reads 1 s t := by
  rcases h with ⟨htrace, hts⟩ | ⟨htrace, hts⟩
  · exact ⟨frame, .of_trace_eq htrace, .inl hts⟩
  · exact ⟨frame, .of_read htrace, .inr hts⟩

theorem readPin_reads (p : Pin) (f : Bool) (s : State) : Reads 1 s (readPin p f s).state :=
  .of_bus (readPin_frame p f s) (readPin_bus p f s)

/-- RDA leaves a state that a read left, with DATA or with no answer. -/
theorem exec_rda_eq {s t : State} (h : exec .rda s = .next t) :
    ∃ u r, t = u.setResp r ∧ (r = s.resp ∨ ∃ d, r = .ofData d) ∧ ReadFrame s u ∧
      ((u.trace = s.trace ∧ u.ts = s.ts) ∨ (u.trace = s.trace ++ readEvents s ∧ u.ts = s.now)) := by
  have frame := physicalRead_frame s
  have htrace := physicalRead_trace s
  have hts := physicalRead_ts s
  obtain ⟨u, hu, rfl⟩ | ⟨hread, -⟩ := exec_rda_cases h
  · refine ⟨_, _, rfl, .inr ⟨_, rfl⟩, ?_⟩
    obtain rfl | hread := hu
    · exact ⟨readPins_frame allPins 0#8 u, .inl ⟨by simp, by simp⟩⟩
    · rw [hread] at frame htrace hts
      exact ⟨frame.trans (readPins_frame allPins 0#8 u), .inr ⟨by simpa using htrace, by simpa using hts⟩⟩
  · rw [hread] at frame htrace hts
    exact ⟨t, t.resp, rfl, .inl frame.resp, frame, .inr ⟨htrace, hts⟩⟩

/-- The ways ENC ends: the phase update, REATTACH and the response after two reads, or stuck in one of them. -/
theorem exec_enc_reads {a b : Pin} {rev : Bool} {s t : State} (h : exec (.enc a b rev) s = .next t) :
    (∃ u curA curB, Reads 2 (emitDetach s) u ∧
      t = (emitReattach (recordPhase b curB (recordPhase a curA u))).setResp
        (pollResponse s (tableDelta (pinBit s.phase a) (pinBit s.phase b) curA curB rev))) ∨
    Reads 2 (emitDetach s) t := by
  have readsA := readPin_reads a true (emitDetach s)
  obtain ⟨curA, s1, curB, s2, hA, hB, -⟩ | ⟨u, -, -, hu, hreads⟩ := execEnc_cases a b rev s
  · have readsB := readPin_reads b true s1
    rw [hA] at readsA
    rw [hB] at readsB
    exact .inl ⟨s2, curA, curB, readsA.trans readsB,
      (Host.Outcome.next.inj ((exec_enc_of_reads rev hA hB).symm.trans h)).symm⟩
  · obtain rfl : u = t := Host.Outcome.next.inj (hu.symm.trans h)
    obtain hA | ⟨curA, s1, hA, hB⟩ := hreads
    · rw [hA] at readsA
      exact .inr ⟨readsA.frame, readsA.traffic.mono (Nat.le_succ 1), readsA.ts⟩
    · have readsB := readPin_reads b true s1
      rw [hA] at readsA
      rw [hB] at readsB
      exact .inr (readsA.trans readsB)

end Sys2Proof.Machine

namespace Sys2Proof.Machine

/-! ### How ACT ends (R110) -/

theorem exec_act_cases {s t : State} (h : exec .act s = .next t) :
    (s.wm ||| s.rm = 0#8 ∧ t = s.setResp (.ofStatus .ok)) ∨
    (s.wm ||| s.rm ≠ 0#8 ∧ s.nextWriteAnswer = .ack ∧
      t = ((((s.afterWrite (initialByte s)).setBuf (initialByte s)).setWbuf (initialByte s)).setTs s.now).setResp
        (.ofStatus .ok)) ∨
    (s.wm ||| s.rm ≠ 0#8 ∧ s.nextWriteAnswer = .nack ∧
      t = (s.afterWrite (initialByte s)).setResp (.ofStatus .deviceUnreachable)) ∨
    (s.wm ||| s.rm ≠ 0#8 ∧ s.nextWriteAnswer = .never ∧ t = (s.afterWrite (initialByte s)).setStuck) := by
  by_cases hconf : s.wm ||| s.rm = 0#8
  · exact .inl ⟨hconf, Host.Outcome.next.inj (h.symm.trans (exec_act_unconfigured hconf))⟩
  · refine .inr ?_
    cases hw : s.nextWriteAnswer with
    | ack => exact .inl ⟨hconf, rfl, Host.Outcome.next.inj (h.symm.trans (exec_act_ack hw hconf))⟩
    | nack => exact .inr (.inl ⟨hconf, rfl, Host.Outcome.next.inj (h.symm.trans (exec_act_nack hw hconf))⟩)
    | never => exact .inr (.inr ⟨hconf, rfl, Host.Outcome.next.inj (h.symm.trans (exec_act_never hw hconf))⟩)

/-! ### The response of each completed command (R38, R160 to R167) -/

section
variable {s t : State}

theorem exec_cfg_resp {p : Pin} {dir : Direction} {lvl : Bool} (h : exec (.cfg p dir lvl) s = .next t) :
    t.resp = .ofStatus (if dir = .unrecognized then .invalidConfiguration else .ok) := by
  cases dir <;> cases h <;> rfl

theorem exec_act_resp (h : exec .act s = .next t) (ht : t.stuck = false) :
    t.resp = .ofStatus (if s.wm ||| s.rm ≠ 0#8 ∧ s.nextWriteAnswer = .nack then .deviceUnreachable else .ok) := by
  rcases exec_act_cases h with ⟨hconf, rfl⟩ | ⟨-, hw, rfl⟩ | ⟨hconf, hw, rfl⟩ | ⟨-, -, rfl⟩
  · simp [hconf]
  · simp [hw]
  · simp [hconf, hw]
  · cases ht

theorem commit_transmit_resp
    (h : commit ((transmit s).andThen fun acked s1 => .done (transmitStatus acked) s1) = .next t)
    (ht : t.stuck = false) :
    t.resp = .ofStatus (if s.nextWriteAnswer = .nack then .deviceUnreachable else .ok) := by
  rcases commit_transmit_cases h with ⟨hw, rfl⟩ | ⟨hw, rfl⟩ | ⟨-, rfl⟩
  · simp [hw]
  · simp [hw]
  · cases ht

theorem exec_wr_resp {p : Pin} {v : Bool} (h : exec (.wr p v) s = .next t) (ht : t.stuck = false) :
    t.resp = .ofStatus (if s.nextWriteAnswer = .nack then .deviceUnreachable else .ok) :=
  commit_transmit_resp (s := s.setWbuf (setPinBit s.wbuf p v)) h ht

theorem exec_wra_resp {levels : Byte} (h : exec (.wra levels) s = .next t) (ht : t.stuck = false) :
    t.resp = .ofStatus (if s.nextWriteAnswer = .nack then .deviceUnreachable else .ok) :=
  commit_transmit_resp (s := s.setWbuf levels) h ht

theorem exec_rd_resp {p : Pin} {f : Bool} (h : exec (.rd p f) s = .next t) (ht : t.stuck = false) :
    ∃ v, t.resp = .ofData (rdData v) := by
  obtain ⟨u, -, rfl⟩ := exec_rd_completed h ht
  exact ⟨_, rfl⟩

theorem exec_rda_resp (h : exec .rda s = .next t) (ht : t.stuck = false) : ∃ d, t.resp = .ofData d := by
  obtain ⟨u, -, rfl⟩ | ⟨-, hstuck⟩ := exec_rda_cases h
  · exact ⟨_, rfl⟩
  · rw [ht] at hstuck; cases hstuck

end

/-- Settles O40: the response of each completed command is known. -/
theorem statusFollowsCause : Obligations.StatusFollowsCause := by
  intro i s t h ht
  cases i with
  | cfg p dir lvl => exact congrArg Response.status (exec_cfg_resp h)
  | act => exact congrArg Response.status (exec_act_resp h ht)
  | wr p v => exact congrArg Response.status (exec_wr_resp h ht)
  | wra levels => exact congrArg Response.status (exec_wra_resp h ht)
  | rd p f =>
    obtain ⟨v, hresp⟩ := exec_rd_resp h ht
    exact congrArg Response.status hresp
  | rda =>
    obtain ⟨d, hresp⟩ := exec_rda_resp h ht
    exact congrArg Response.status hresp
  | enc a b rev =>
    obtain ⟨curA, curB, hresp⟩ := resp_of_exec_enc h ht
    exact congrArg Response.status hresp

/-- A response with a status alone has 0 in its other fields. -/
theorem eq_status_only_of_ofStatus {r : Response} {st : Status} (h : r = .ofStatus st) :
    r = ⟨r.status, 0, 0, false, 0⟩ := by
  subst h
  rfl

/-- The response of a poll says whether its DELTA is 0. -/
theorem pollResponse_changed_iff (s : State) (prevA prevB curA curB rev : Bool) :
    (pollResponse s (tableDelta prevA prevB curA curB rev)).changed = true ↔
      (pollResponse s (tableDelta prevA prevB curA curB rev)).delta ≠ 0 := by
  rw [← encResponse_eq_pollResponse]
  exact decide_eq_true_iff

/-- Settles O41: the response of each completed command is known. -/
theorem responseFieldsPerCommand : Obligations.ResponseFieldsPerCommand := by
  intro i s t h ht
  cases i with
  | cfg p dir lvl => exact eq_status_only_of_ofStatus (exec_cfg_resp h)
  | act => exact eq_status_only_of_ofStatus (exec_act_resp h ht)
  | wr p v => exact eq_status_only_of_ofStatus (exec_wr_resp h ht)
  | wra levels => exact eq_status_only_of_ofStatus (exec_wra_resp h ht)
  | rd p f =>
    obtain ⟨v, hresp⟩ := exec_rd_resp h ht
    dsimp only
    rw [hresp]
    exact ⟨by cases v <;> decide, rfl, rfl, rfl⟩
  | rda =>
    obtain ⟨d, hresp⟩ := exec_rda_resp h ht
    dsimp only
    rw [hresp]
    exact ⟨rfl, rfl, rfl⟩
  | enc a b rev =>
    obtain ⟨curA, curB, hresp⟩ := resp_of_exec_enc h ht
    dsimp only
    rw [hresp]
    exact ⟨rfl, pollResponse_changed_iff s _ _ _ _ _⟩

/-! ### The bus transactions of each command (R54) -/

/-- CFG writes the masks and the response alone. -/
theorem exec_cfg_eq {p : Pin} {dir : Direction} {lvl : Bool} {s t : State}
    (h : exec (.cfg p dir lvl) s = .next t) :
    t = { s with wm := t.wm, wmu := t.wmu, rm := t.rm, pd := t.pd, pu := t.pu, resp := t.resp } := by
  cases dir <;> cases h <;> rfl

/-- RD is at most one physical read and then DATA, or no answer. -/
theorem exec_rd_reads {p : Pin} {f : Bool} {s t : State} (h : exec (.rd p f) s = .next t) :
    ∃ u r, t = u.setResp r ∧ Reads 1 s u ∧ (r = s.resp ∨ ∃ d, r = .ofData d) := by
  have reads := readPin_reads p f s
  obtain ⟨u, -, rfl, hread, -⟩ | ⟨hread, -⟩ := exec_rd_cases h <;> rw [hread] at reads
  · exact ⟨_, _, rfl, reads, .inr ⟨_, rfl⟩⟩
  · exact ⟨t, t.resp, rfl, reads, .inl reads.frame.resp⟩

/-- RDA is at most one physical read and then DATA, or no answer. -/
theorem exec_rda_reads {s t : State} (h : exec .rda s = .next t) :
    ∃ u r, t = u.setResp r ∧ Reads 1 s u ∧ (r = s.resp ∨ ∃ d, r = .ofData d) := by
  obtain ⟨u, r, ht, hr, frame, hbus⟩ := exec_rda_eq h
  exact ⟨u, r, ht, .of_bus frame hbus, hr⟩

@[simp] theorem recordPhase_cfg (p : Pin) (v : Bool) (s : State) : (recordPhase p v s).cfg = s.cfg := by
  rw [recordPhase_eq]
  rfl

theorem exec_enc_traffic {a b : Pin} {rev : Bool} {s t : State} (h : exec (.enc a b rev) s = .next t) :
    Traffic 2 s t := by
  have hdetach : Traffic 0 s (emitDetach s) := .of_event rfl rfl
  obtain ⟨u, curA, curB, reads, rfl⟩ | reads := exec_enc_reads h
  · have hreattach : Traffic 0 u (emitReattach (recordPhase b curB (recordPhase a curA u))) :=
      .of_event (e := .reattach) (by simp) rfl
    exact (hdetach.trans (emitDetach_cfg s) reads.traffic).trans (reads.frame.cfg.trans (emitDetach_cfg s)) hreattach
  · exact hdetach.trans (emitDetach_cfg s) reads.traffic

/-- Settles O44: a write is one event, a read is in order by itself, and ENC is two reads. -/
theorem busTransactionsPerCommand : Obligations.BusTransactionsPerCommand := by
  intro i s t h
  cases i with
  | cfg p dir lvl => exact ⟨[], by rw [exec_cfg_eq h]; exact (List.append_nil _).symm, rfl⟩
  | act =>
    rcases exec_act_cases h with ⟨hconf, rfl⟩ | ⟨hconf, -, rfl⟩ | ⟨hconf, -, rfl⟩ | ⟨hconf, -, rfl⟩
    · exact ⟨[], by simp, rfl, by rw [if_pos hconf]; rfl⟩
    all_goals exact ⟨_, s.afterWrite_trace (initialByte s), rfl, by rw [if_neg hconf]; rfl⟩
  | wr p v => exact ⟨_, (exec_wr_frame h).trace, rfl, rfl⟩
  | wra levels => exact ⟨_, (exec_wra_frame h).trace, rfl, rfl⟩
  | rd p f =>
    obtain ⟨u, r, rfl, reads, -⟩ := exec_rd_reads h
    exact reads.traffic.counts
  | rda =>
    obtain ⟨u, r, rfl, reads, -⟩ := exec_rda_reads h
    exact reads.traffic.counts
  | enc a b rev => exact (exec_enc_traffic h).counts

/-! ### What each command may write (R27 to R31, R35, R143) -/

/-- The five masks are the same. -/
def SameMasks (s t : State) : Prop :=
  t.wm = s.wm ∧ t.wmu = s.wmu ∧ t.rm = s.rm ∧ t.pd = s.pd ∧ t.pu = s.pu

theorem ReadFrame.sameMasks {s t : State} (frame : ReadFrame s t) : SameMasks s t :=
  ⟨frame.wm, frame.wmu, frame.rm, frame.pd, frame.pu⟩

theorem WriteFrame.sameMasks {s t : State} (frame : WriteFrame s t) : SameMasks s t :=
  ⟨frame.wm, frame.wmu, frame.rm, frame.pd, frame.pu⟩

/-- ACT leaves the masks and PHASE, and moves TS to NOW or not at all. -/
theorem exec_act_frame {s t : State} (h : exec .act s = .next t) :
    SameMasks s t ∧ t.phase = s.phase ∧ (t.ts = s.ts ∨ t.ts = s.now) := by
  rcases exec_act_cases h with ⟨-, rfl⟩ | ⟨-, -, rfl⟩ | ⟨-, -, rfl⟩ | ⟨-, -, rfl⟩ <;> simp [SameMasks]

/-- What ENC leaves of its two reads: they are reads of the state it started in, but for the events. -/
theorem exec_enc_frame {a b : Pin} {rev : Bool} {s t : State} (h : exec (.enc a b rev) s = .next t) :
    ∃ u, ReadFrame (emitDetach s) u ∧ SameMasks u t ∧ t.cfg = u.cfg ∧ t.buf = u.buf ∧ t.wbuf = u.wbuf ∧
      t.now = u.now ∧ t.posIn = u.posIn ∧ (t.ts = s.ts ∨ t.ts = s.now) := by
  obtain ⟨u, curA, curB, reads, rfl⟩ | reads := exec_enc_reads h
  · obtain ⟨ph, hph⟩ : ∃ ph, recordPhase b curB (recordPhase a curA u) = u.setPhase ph :=
      ⟨_, recordPhase_recordPhase_eq a b curA curB u⟩
    rw [hph]
    exact ⟨u, reads.frame, ⟨rfl, rfl, rfl, rfl, rfl⟩, rfl, rfl, rfl, rfl, rfl, reads.ts⟩
  · exact ⟨t, reads.frame, ⟨rfl, rfl, rfl, rfl, rfl⟩, rfl, rfl, rfl, rfl, rfl, reads.ts⟩

theorem SameMasks.trans {s t u : State} (hst : SameMasks s t) (htu : SameMasks t u) : SameMasks s u := by
  obtain ⟨h1, h2, h3, h4, h5⟩ := hst
  obtain ⟨h1', h2', h3', h4', h5'⟩ := htu
  exact ⟨h1'.trans h1, h2'.trans h2, h3'.trans h3, h4'.trans h4, h5'.trans h5⟩

/-- Settles O55: neither bus writes nor reads nor the end of a poll reach a mask. -/
theorem onlyCfgWritesMasks : Obligations.OnlyCfgWritesMasks := by
  intro i s t h hi
  cases i with
  | cfg p dir lvl => exact absurd rfl hi
  | act =>
    obtain ⟨hmasks, -⟩ := exec_act_frame h
    exact hmasks
  | wr p v => exact (exec_wr_frame h).sameMasks
  | wra levels => exact (exec_wra_frame h).sameMasks
  | rd p f =>
    obtain ⟨u, r, rfl, reads, -⟩ := exec_rd_reads h
    exact reads.frame.sameMasks
  | rda =>
    obtain ⟨u, r, rfl, reads, -⟩ := exec_rda_reads h
    exact reads.frame.sameMasks
  | enc a b rev =>
    obtain ⟨u, frame, hmasks, -⟩ := exec_enc_frame h
    exact frame.sameMasks.trans hmasks

/-- Settles O56: only the end of a poll reaches PHASE, at its two pins. -/
theorem onlyEncWritesPhase : Obligations.OnlyEncWritesPhase := by
  intro i s t h
  cases i with
  | cfg p dir lvl => rw [exec_cfg_eq h]
  | act =>
    obtain ⟨-, hphase, -⟩ := exec_act_frame h
    exact hphase
  | wr p v => exact (exec_wr_frame h).phase
  | wra levels => exact (exec_wra_frame h).phase
  | rd p f =>
    obtain ⟨u, r, rfl, reads, -⟩ := exec_rd_reads h
    exact reads.frame.phase
  | rda =>
    obtain ⟨u, r, rfl, reads, -⟩ := exec_rda_reads h
    exact reads.frame.phase
  | enc a b rev =>
    intro q ha hb
    obtain ⟨u, curA, curB, reads, rfl⟩ | reads := exec_enc_reads h
    · simp [ha, hb, reads.frame.phase]
    · rw [reads.frame.phase, emitDetach_phase]

theorem readEvents_ne_nil (s : State) : readEvents s ≠ [] := by
  unfold readEvents
  split <;> simp

/-- TS tells whether a read went to the bus. -/
theorem ts_eq_now_iff_trace_ne {s t : State}
    (h : (t.trace = s.trace ∧ t.ts = s.ts) ∨ (t.trace = s.trace ++ readEvents s ∧ t.ts = s.now)) :
    t.trace = s.trace ∧ t.ts = s.ts ∨ t.trace ≠ s.trace ∧ t.ts = s.now := by
  refine h.imp id fun ⟨htrace, hts⟩ => ⟨?_, hts⟩
  rw [htrace]
  simp [readEvents_ne_nil]

/-- Settles O57: a read that goes to the bus has a record there and moves TS to NOW. -/
theorem writersOfWbufAndTimestamp : Obligations.WritersOfWbufAndTimestamp := by
  intro i s t h
  cases i with
  | cfg p dir lvl =>
    rw [exec_cfg_eq h]
    exact ⟨rfl, rfl⟩
  | act =>
    obtain ⟨-, -, hts⟩ := exec_act_frame h
    exact hts
  | wr p v => exact (exec_wr_frame h).ts
  | wra levels => exact (exec_wra_frame h).ts
  | rd p f =>
    obtain ⟨u, r, rfl, reads, -⟩ := exec_rd_reads h
    exact ⟨reads.frame.wbuf, ts_eq_now_iff_trace_ne (exec_rd_bus h)⟩
  | rda =>
    obtain ⟨u, r, rfl, -, frame, hbus⟩ := exec_rda_eq h
    exact ⟨frame.wbuf, ts_eq_now_iff_trace_ne hbus⟩
  | enc a b rev =>
    obtain ⟨u, frame, -, -, -, hwbuf, -, -, hts⟩ := exec_enc_frame h
    exact ⟨hwbuf.trans frame.wbuf, hts⟩

/-- Settles O58: reads keep the BUF bits of pins that are no input, and WR and WRA keep BUF. -/
theorem onlyActWritesNonInputBufBits : Obligations.OnlyActWritesNonInputBufBits := by
  intro i s t hinv hi h q hq
  obtain ⟨-, -, hin⟩ := hinv
  cases i with
  | act => exact absurd rfl hi
  | cfg p dir lvl => rw [exec_cfg_eq h]
  | wr p v => rw [(exec_wr_frame h).buf, State.setWbuf_buf]
  | wra levels => rw [(exec_wra_frame h).buf, State.setWbuf_buf]
  | rd p f =>
    obtain ⟨u, r, rfl, reads, -⟩ := exec_rd_reads h
    exact reads.frame.buf hin q hq
  | rda =>
    obtain ⟨u, r, rfl, reads, -⟩ := exec_rda_reads h
    exact reads.frame.buf hin q hq
  | enc a b rev =>
    obtain ⟨u, frame, -, -, hbuf, -⟩ := exec_enc_frame h
    rw [hbuf]
    exact frame.buf hin q hq

/-! ### The invariant of the machine -/

/-- The PCR invariant pin by pin (R26). -/
theorem pcrInv_iff (s : State) : s.pcrInv ↔ ∀ p : Pin, (pinBit s.wm p && pinBit s.rm p) = false ∧
    (pinBit s.pd p && pinBit s.pu p) = false ∧ (pinBit s.pd p || pinBit s.pu p) = pinBit s.rm p := by
  refine ⟨fun h p => pcr_bits h p, fun h => ⟨?_, ?_, ?_⟩⟩
  · exact (byte_eq_zero_iff _).2 fun p => by
      obtain ⟨hmode, -, -⟩ := h p
      rw [pinBit_and, hmode]
  · exact (byte_eq_zero_iff _).2 fun p => by
      obtain ⟨-, hboth, -⟩ := h p
      rw [pinBit_and, hboth]
  · exact byte_ext fun p => by
      obtain ⟨-, -, hinput⟩ := h p
      rw [pinBit_or, hinput]

theorem SameMasks.pcrInv {s t : State} (h : SameMasks s t) (hinv : s.pcrInv) : t.pcrInv := by
  obtain ⟨hwm, -, hrm, hpd, hpu⟩ := h
  simp only [State.pcrInv, hwm, hrm, hpd, hpu]
  exact hinv

/-- A row of the direction table with at most one pull, and a pull just for an input, keeps the masks legal. -/
theorem configurePin_pcrInv {s : State} (hinv : s.pcrInv) (p : Pin) {isOutput pullDown pullUp : Bool} (wmu : Byte)
    (hboth : (pullDown && pullUp) = false) (hinput : (pullDown || pullUp) = !isOutput) :
    (configurePin p isOutput pullDown pullUp wmu s).pcrInv := by
  rw [pcrInv_iff] at hinv ⊢
  intro q
  simp only [configurePin_wm, configurePin_rm, configurePin_pd, configurePin_pu, pinBit_setPinBit]
  by_cases hq : q = p
  · simp only [if_pos hq]
    exact ⟨Bool.and_not_self isOutput, hboth, hinput⟩
  · simp only [if_neg hq]
    exact hinv q

theorem exec_cfg_pcrInv {p : Pin} {dir : Direction} {lvl : Bool} {s t : State}
    (h : exec (.cfg p dir lvl) s = .next t) (hinv : s.pcrInv) : t.pcrInv := by
  cases dir <;> cases h
  · exact configurePin_pcrInv hinv p (setPinBit s.wmu p lvl) rfl rfl
  · exact configurePin_pcrInv hinv p s.wmu rfl rfl
  · exact configurePin_pcrInv hinv p s.wmu rfl rfl
  · exact hinv

theorem exec_pcrInv {i : Instr} {s t : State} (h : exec i s = .next t) (hinv : s.pcrInv) : t.pcrInv := by
  cases i with
  | cfg p dir lvl => exact exec_cfg_pcrInv h hinv
  | _ => exact SameMasks.pcrInv (onlyCfgWritesMasks _ s t h (by simp [Instr.mnemonic])) hinv

/-- A response whose DELTA and CHANGED are legal and whose POS_OUT fits its width. -/
def Response.Fits (c : Config) (r : Response) : Prop := r.legal ∧ r.posOut < 2 ^ c.posW

theorem Response.ofStatus_fits (c : Config) (st : Status) : (Response.ofStatus st).Fits c :=
  ⟨⟨(by decide : (0 : BitVec 2) ≠ 0b10), rfl⟩, Nat.two_pow_pos _⟩

theorem Response.ofData_fits (c : Config) (d : Byte) : (Response.ofData d).Fits c :=
  ⟨⟨(by decide : (0 : BitVec 2) ≠ 0b10), rfl⟩, Nat.two_pow_pos _⟩

theorem pollResponse_fits (s : State) (prevA prevB curA curB rev : Bool) :
    (pollResponse s (tableDelta prevA prevB curA curB rev)).Fits s.cfg := by
  refine ⟨⟨?_, ?_⟩, ?_⟩
  · change BitVec.ofInt 2 (tableDelta prevA prevB curA curB rev) ≠ 0b10
    obtain h | h | h := tableDelta_cases prevA prevB curA curB rev <;> rw [h] <;> decide
  · rw [← encResponse_eq_pollResponse]
    rfl
  · rw [← encResponse_eq_pollResponse]
    exact BitVec.isLt _

theorem Bridge.detach_legal (br : Bridge) : br.detach.legal := by simp [Bridge.legal]

theorem Bridge.attach_legal (a : Attachment) (br : Bridge) : (br.attach a).legal := by simp [Bridge.legal]

theorem Bridge.reattach_legal {br : Bridge} (h : br.legal) : br.reattach.legal := by
  cases hlast : br.last with
  | none => rwa [Bridge.reattach_of_none hlast]
  | some a =>
    rw [Bridge.reattach_of_some hlast]
    exact Bridge.attach_legal a br

/-- What every command keeps, beside the masks: the parameters and the sampled ports; TS is old or NOW, the response old
or legal, the traffic in order, and the bridge legal. -/
structure CommandFrame (s t : State) : Prop where
  cfg : t.cfg = s.cfg
  now : t.now = s.now
  posIn : t.posIn = s.posIn
  ts : t.ts = s.ts ∨ t.ts = s.now
  resp : t.resp = s.resp ∨ t.resp.Fits s.cfg
  traffic : Traffic 2 s t
  bridge : s.bridge.legal → t.bridge.legal

theorem exec_cfg_commandFrame {p : Pin} {dir : Direction} {lvl : Bool} {s t : State}
    (h : exec (.cfg p dir lvl) s = .next t) : CommandFrame s t := by
  have hresp : t.resp.Fits s.cfg := by
    rw [exec_cfg_resp h]
    exact Response.ofStatus_fits _ _
  rw [exec_cfg_eq h]
  exact ⟨rfl, rfl, rfl, .inl rfl, .inr hresp, .of_trace_eq rfl, id⟩

theorem exec_act_commandFrame {s t : State} (h : exec .act s = .next t) : CommandFrame s t := by
  obtain ⟨-, -, hts⟩ := exec_act_frame h
  have hwrite : ∀ u : State, u.trace = (s.afterWrite (initialByte s)).trace → Traffic 2 s u := fun u hu =>
    (Traffic.of_write (hu.trans (s.afterWrite_trace _))).mono (Nat.le_succ 1)
  rcases exec_act_cases h with ⟨-, rfl⟩ | ⟨-, -, rfl⟩ | ⟨-, -, rfl⟩ | ⟨-, -, rfl⟩
  · exact ⟨rfl, rfl, rfl, hts, .inr (Response.ofStatus_fits _ _), .of_trace_eq rfl, id⟩
  · exact ⟨by simp, by simp, by simp, hts, .inr (Response.ofStatus_fits _ _), hwrite _ rfl, by simp⟩
  · exact ⟨by simp, by simp, by simp, hts, .inr (Response.ofStatus_fits _ _), hwrite _ rfl, by simp⟩
  · exact ⟨by simp, by simp, by simp, hts, .inl (by simp), hwrite _ rfl, by simp⟩

/-- WR and WRA write WBUF, and the rest is Transmit and its answer. -/
theorem setWbuf_transmit_commandFrame {wb : Byte} {s t : State}
    (h : commit ((transmit (s.setWbuf wb)).andThen fun acked s1 => .done (transmitStatus acked) s1) = .next t) :
    CommandFrame s t := by
  have frame := commit_transmit_frame h
  refine ⟨frame.cfg, frame.now, frame.posIn, .inl frame.ts, ?_,
    (Traffic.of_write frame.trace).mono (Nat.le_succ 1), by rw [frame.bridge]; exact id⟩
  rcases commit_transmit_cases h with ⟨-, rfl⟩ | ⟨-, rfl⟩ | ⟨-, rfl⟩
  · exact .inr (Response.ofStatus_fits _ _)
  · exact .inr (Response.ofStatus_fits _ _)
  · exact .inl (by simp)

theorem commandFrame_of_reads {s u : State} {r : Response} (reads : Reads 1 s u)
    (hr : r = s.resp ∨ ∃ d, r = .ofData d) : CommandFrame s (u.setResp r) := by
  refine ⟨reads.frame.cfg, reads.frame.now, reads.frame.posIn, reads.ts, hr.imp id ?_,
    reads.traffic.mono (Nat.le_succ 1), fun h => ?_⟩
  · rintro ⟨d, rfl⟩
    exact Response.ofData_fits _ d
  · rw [State.setResp_bridge, reads.frame.bridge]
    exact h

theorem exec_enc_commandFrame {a b : Pin} {rev : Bool} {s t : State} (h : exec (.enc a b rev) s = .next t) :
    CommandFrame s t := by
  obtain ⟨u, frame, -, hcfg, -, -, hnow, hposIn, hts⟩ := exec_enc_frame h
  refine ⟨hcfg.trans frame.cfg, hnow.trans frame.now, hposIn.trans frame.posIn, hts, ?_, exec_enc_traffic h,
    fun _ => ?_⟩
  all_goals obtain ⟨u, curA, curB, reads, rfl⟩ | reads := exec_enc_reads h
  · exact .inr (pollResponse_fits s _ _ _ _ _)
  · exact .inl reads.frame.resp
  · simp only [State.setResp_bridge, emitReattach_bridge, recordPhase_bridge, reads.frame.bridge]
    exact Bridge.reattach_legal (Bridge.detach_legal _)
  · rw [reads.frame.bridge]
    exact Bridge.detach_legal _

theorem exec_commandFrame {i : Instr} {s t : State} (h : exec i s = .next t) : CommandFrame s t := by
  cases i with
  | cfg p dir lvl => exact exec_cfg_commandFrame h
  | act => exact exec_act_commandFrame h
  | wr p v => exact setWbuf_transmit_commandFrame h
  | wra levels => exact setWbuf_transmit_commandFrame h
  | rd p f =>
    obtain ⟨u, r, rfl, reads, hr⟩ := exec_rd_reads h
    exact commandFrame_of_reads reads hr
  | rda =>
    obtain ⟨u, r, rfl, reads, hr⟩ := exec_rda_reads h
    exact commandFrame_of_reads reads hr
  | enc a b rev => exact exec_enc_commandFrame h

theorem CommandFrame.inv {s t : State} (frame : CommandFrame s t) (hmasks : s.pcrInv → t.pcrInv) (hinv : s.Inv) :
    t.Inv := by
  obtain ⟨hwf, hpcr, ⟨hts, hnow, hposIn, hposOut⟩, hlegal, ⟨haddr, hacks⟩, hbridge⟩ := hinv
  obtain ⟨new, htrace, haddr', hacks', -⟩ := frame.traffic
  obtain ⟨hlegal', hposOut'⟩ : t.resp.Fits s.cfg := by
    rcases frame.resp with h | h
    · rw [h]; exact ⟨hlegal, hposOut⟩
    · exact h
  refine ⟨by rw [frame.cfg]; exact hwf, hmasks hpcr, ?_, hlegal', ⟨?_, ?_⟩, frame.bridge hbridge⟩
  · rw [State.widthInv, frame.cfg, frame.now, frame.posIn]
    refine ⟨?_, hnow, hposIn, hposOut'⟩
    rcases frame.ts with h | h <;> rw [h] <;> assumption
  · rw [htrace, frame.cfg, List.all_append, haddr, haddr']
    rfl
  · rw [htrace]
    exact readsFollowAck_append hacks hacks'

/-- Every command keeps the invariant. -/
theorem exec_keeps_inv {i : Instr} {s t : State} (h : exec i s = .next t) (hinv : s.Inv) : t.Inv :=
  (exec_commandFrame h).inv (exec_pcrInv h) hinv

/-- Sampling the ports brings them into range. -/
theorem accept_keeps_inv {s : State} (hinv : s.Inv) (rest : List HostAction) (pos adv : Nat) :
    (s.accept rest pos adv).Inv := by
  obtain ⟨hwf, hpcr, ⟨hts, -, -, hposOut⟩, hlegal, hbus, hbridge⟩ := hinv
  exact ⟨hwf, hpcr, ⟨hts, Nat.mod_lt _ (Nat.two_pow_pos _), Nat.mod_lt _ (Nat.two_pow_pos _), hposOut⟩, hlegal,
    hbus, hbridge⟩

theorem rejectWord_keeps_inv {s : State} (hinv : s.Inv) : (rejectWord s).Inv := by
  obtain ⟨hwf, hpcr, ⟨hts, hnow, hposIn, -⟩, -, hbus, hbridge⟩ := hinv
  obtain ⟨hlegal, hposOut⟩ := Response.ofStatus_fits s.cfg .illegalCommand
  exact ⟨hwf, hpcr, ⟨hts, hnow, hposIn, hposOut⟩, hlegal, hbus, hbridge⟩

/-- A call of the bridge reaches nothing else. -/
theorem setBridge_keeps_inv {s : State} (hinv : s.Inv) (rest : List HostAction) {br : Bridge} (hbr : br.legal) :
    ((s.setHost rest).setBridge br).Inv := by
  obtain ⟨hwf, hpcr, hwidth, hlegal, hbus, -⟩ := hinv
  exact ⟨hwf, hpcr, hwidth, hlegal, hbus, hbr⟩

theorem runWord_cases {w : CmdWord} {s t : State} (h : runWord w s = .next t) :
    (∃ i, exec i s = .next t) ∨ t = rejectWord s := by
  by_cases hw : ∃ i, decode w = .instr i
  · obtain ⟨i, hi⟩ := hw
    exact .inl ⟨i, by rwa [runWord_instr hi] at h⟩
  · rw [runWord_illegal hw] at h
    exact .inr (Host.Outcome.next.inj h).symm

/-- Settles O53: acceptance, every command, a rejected word and every call of the bridge keep the invariant. -/
theorem stepKeepsStateInv : Obligations.StepKeepsStateInv := by
  intro s t hinv h
  rcases step_cases h with ⟨-, rfl⟩ | ⟨a, rest, -, -, br, rfl, hbr⟩ | ⟨-, w, pos, adv, rest, -, hrun⟩
  · exact hinv
  · refine setBridge_keeps_inv hinv rest ?_
    obtain ⟨att, rfl⟩ | rfl | rfl := hbr
    · exact Bridge.attach_legal att s.bridge
    · exact Bridge.detach_legal s.bridge
    · obtain ⟨-, -, -, -, -, hbridge⟩ := hinv
      exact Bridge.reattach_legal hbridge
  · have haccept := accept_keeps_inv hinv rest pos adv
    obtain ⟨i, hexec⟩ | rfl := runWord_cases hrun
    · exact exec_keeps_inv hexec haccept
    · exact rejectWord_keeps_inv haccept

/-- Settles O54: acceptance, the commands and the bridge keep the parameters. -/
theorem stepKeepsParameters : Obligations.StepKeepsParameters := by
  intro s t h
  rcases step_cases h with ⟨-, rfl⟩ | ⟨a, rest, -, -, br, rfl, -⟩ | ⟨-, w, pos, adv, rest, -, hrun⟩
  · rfl
  · rfl
  · obtain ⟨i, hexec⟩ | rfl := runWord_cases hrun
    · exact (exec_commandFrame hexec).cfg
    · rfl

end Sys2Proof.Machine
